-- ==== Sys2Proof/Word.lean ====
section
/-! DEFINITION. The word types: a byte of a buffer (20_memory.md rule R72: nothing wider is stored) and a
host-visible register (10_state.md section 2). -/

namespace Sys2Proof

/-- One byte of `IN` or `OUT` (20_memory.md rules R61, R62 and R72). -/
abbrev Byte := BitVec 8

/-- A host-visible register: "Every host-visible register is 32 bits wide" (10_state.md section 2). -/
abbrev Reg := BitVec 32

end Sys2Proof
end

