-- ==== Sys2Proof/Config.lean ====
section
/-! DEFINITION. What an implementation fixes (00_scope.md rule R9) and the free values: values the spec leaves
open after an access that completes. A free value is opaque, so a statement about it holds for every value. -/

namespace Sys2Proof

/-- `P_WRITE_MAX`: the largest `count` of WRITE_BITS (00_scope.md rule R9). -/
def Config.writeMax : Nat := 16

/-- `P_PEEK_MAX`: the largest number of bits PEEK returns (00_scope.md rule R9). -/
def Config.peekMax : Nat := 24

/-- The OPEN parameters of an instance of the core (00_scope.md rule R9): no step changes them, and every
statement is about every value of them (log 3). -/
structure Params where
  /-- `P_MAX_WIDTH`: the largest `WIDTH` a job accepts. -/
  maxWidth : Nat
  /-- `P_MAX_IN_BYTES`: the largest `IN_LEN` a job accepts. -/
  maxInBytes : Nat
  /-- `P_MAX_OUT_BYTES`: the capacity of `OUT` in bytes and of `CA` in cells. -/
  maxOutBytes : Nat
  /-- `P_BLACK_BIT`: the bit value of a Black pixel in source bits and in the packed bitmap. -/
  blackBit : Bool
  deriving DecidableEq, Repr

/-- The parameters of the instance that `State.reset` describes: sizes that admit every register value, and
the polarity of every vector of 95_test_vectors.md. DESIGN CHOICE, log 3: no statement rests on them. -/
def Config.params : Params :=
  { maxWidth := 2 ^ 32 - 1, maxInBytes := 2 ^ 32 - 1, maxOutBytes := 2 ^ 32 - 1, blackBit := true }

/-- What a host read of `OUT` at or beyond `OUT_LEN` gives (93_implementation_defined.md U10 and U11: any
value), applied to the counter `State.fresh`. Log 7. -/
opaque Config.freeByte : Nat → BitVec 8

/-- What a host read of a `CA` cell that no line filled gives (93_implementation_defined.md U10: any value),
applied to the counter `State.fresh`. Log 7. -/
opaque Config.freeColour : Nat → Colour

/-- What a host read of `LINES` or `OUT_LEN` gives when the count does not fit the 32-bit register: the spec
states no value (00_scope.md rule R13: nothing wraps). Applied to `State.fresh`. Log 8. -/
opaque Config.freeCount : Nat → BitVec 32

end Sys2Proof
end

