-- ==== Sys2Proof/WellFormed.lean ====
section
/-! DEFINITION. When a code word is well-formed: it is a member of the codebook of the context it is read
in (30_encoding.md rules R80 and R92, 41_runlength.md rule R120). A code word carries no operand, so this
is the only check. -/

namespace Sys2Proof

/-- The codebook, or codebooks, a code word belongs to. -/
inductive Book
  /-- The mode codes (30_encoding.md rule R81). -/
  | modes
  /-- The run-length table of one colour alone (41_runlength.md rules R121 to R124). -/
  | runs (c : Colour)
  /-- Both run-length tables (41_runlength.md rule R125). -/
  | bothRuns
  deriving DecidableEq, Repr

/-- The codebook of each code word. -/
def Instr.book : Instr → Book
  | .p | .h | .v0 | .vr1 | .vr2 | .vr3 | .vl1 | .vl2 | .vl3 | .ext2d | .ext1d | .eofb => .modes
  | .wt0 | .wt1 | .wt2 | .wt3 | .wt4 | .wt5 | .wt6 | .wt7 | .wt8 | .wt9 | .wt10 | .wt11 | .wt12 | .wt13
  | .wt14 | .wt15 | .wt16 | .wt17 | .wt18 | .wt19 | .wt20 | .wt21 | .wt22 | .wt23 | .wt24 | .wt25 | .wt26
  | .wt27 | .wt28 | .wt29 | .wt30 | .wt31 | .wt32 | .wt33 | .wt34 | .wt35 | .wt36 | .wt37 | .wt38 | .wt39
  | .wt40 | .wt41 | .wt42 | .wt43 | .wt44 | .wt45 | .wt46 | .wt47 | .wt48 | .wt49 | .wt50 | .wt51 | .wt52
  | .wt53 | .wt54 | .wt55 | .wt56 | .wt57 | .wt58 | .wt59 | .wt60 | .wt61 | .wt62 | .wt63 => .runs .white
  | .wm64 | .wm128 | .wm192 | .wm256 | .wm320 | .wm384 | .wm448 | .wm512 | .wm576 | .wm640 | .wm704 | .wm768
  | .wm832 | .wm896 | .wm960 | .wm1024 | .wm1088 | .wm1152 | .wm1216 | .wm1280 | .wm1344 | .wm1408 | .wm1472
  | .wm1536 | .wm1600 | .wm1664 | .wm1728 => .runs .white
  | .bt0 | .bt1 | .bt2 | .bt3 | .bt4 | .bt5 | .bt6 | .bt7 | .bt8 | .bt9 | .bt10 | .bt11 | .bt12 | .bt13
  | .bt14 | .bt15 | .bt16 | .bt17 | .bt18 | .bt19 | .bt20 | .bt21 | .bt22 | .bt23 | .bt24 | .bt25 | .bt26
  | .bt27 | .bt28 | .bt29 | .bt30 | .bt31 | .bt32 | .bt33 | .bt34 | .bt35 | .bt36 | .bt37 | .bt38 | .bt39
  | .bt40 | .bt41 | .bt42 | .bt43 | .bt44 | .bt45 | .bt46 | .bt47 | .bt48 | .bt49 | .bt50 | .bt51 | .bt52
  | .bt53 | .bt54 | .bt55 | .bt56 | .bt57 | .bt58 | .bt59 | .bt60 | .bt61 | .bt62 | .bt63 => .runs .black
  | .bm64 | .bm128 | .bm192 | .bm256 | .bm320 | .bm384 | .bm448 | .bm512 | .bm576 | .bm640 | .bm704 | .bm768
  | .bm832 | .bm896 | .bm960 | .bm1024 | .bm1088 | .bm1152 | .bm1216 | .bm1280 | .bm1344 | .bm1408 | .bm1472
  | .bm1536 | .bm1600 | .bm1664 | .bm1728 => .runs .black
  | .xm1792 | .xm1856 | .xm1920 | .xm1984 | .xm2048 | .xm2112 | .xm2176 | .xm2240 | .xm2304 | .xm2368
  | .xm2432 | .xm2496 | .xm2560 => .bothRuns

/-- A code word may stand in a context when it is a code word of that context's codebook. -/
def Instr.wellFormedIn (i : Instr) : Context → Bool
  | .mode => i.book = .modes
  | .run c => i.book = .runs c || i.book = .bothRuns

end Sys2Proof
end

