-- ==== Sys2Proof/Decode.lean ====
section
/-! DEFINITION. Decoding a code word from the bits of the stream, total on any bit string and rejecting by
the error kind the spec names (30_encoding.md rules R88 to R90, 43_mode_decoder.md rule R153,
41_runlength.md rules R126 and R128), and the encoder of code words. The decoder reads the tables below;
the encoder writes each word out a second time, so that their agreement says something. -/

namespace Sys2Proof

/-! ## Bit strings -/

/-- `bin(v, n)`: the `n`-bit string of `v`, most significant bit first (00_scope.md rule R12). -/
def bin (v : Nat) : Nat → List Bool
  | 0 => []
  | n + 1 => v.testBit n :: bin v n

/-! ## The codebooks -/

/-- A mode code: its code word, its length in bits, and its bits as a number, first bit most significant. -/
structure ModeRow where
  instr : Instr
  len : Nat
  bits : Nat
  deriving DecidableEq, Repr

/-- A run-length code: as a mode code, with the run length `val_c(w)` (41_runlength.md rule R120). -/
structure RunRow where
  instr : Instr
  len : Nat
  bits : Nat
  value : Nat
  deriving DecidableEq, Repr

/-- The mode codes (30_encoding.md rule R81, 43_mode_decoder.md rule R153). Of an Extension the prefix alone
is the code word: its `xxx` field is not read (30_encoding.md rule R84). -/
def modeRows : List ModeRow := [
  ⟨.p, 4, 0b0001⟩, ⟨.h, 3, 0b001⟩, ⟨.v0, 1, 0b1⟩, ⟨.vr1, 3, 0b011⟩, ⟨.vr2, 6, 0b000011⟩,
  ⟨.vr3, 7, 0b0000011⟩, ⟨.vl1, 3, 0b010⟩, ⟨.vl2, 6, 0b000010⟩, ⟨.vl3, 7, 0b0000010⟩, ⟨.ext2d, 7, 0b0000001⟩,
  ⟨.ext1d, 9, 0b000000001⟩, ⟨.eofb, 24, 0b000000000001000000000001⟩]

/-- White terminating codes (41_runlength.md rule R121). -/
def whiteTerminating : List RunRow := [
  ⟨.wt0, 8, 0b00110101, 0⟩, ⟨.wt1, 6, 0b000111, 1⟩, ⟨.wt2, 4, 0b0111, 2⟩, ⟨.wt3, 4, 0b1000, 3⟩,
  ⟨.wt4, 4, 0b1011, 4⟩, ⟨.wt5, 4, 0b1100, 5⟩, ⟨.wt6, 4, 0b1110, 6⟩, ⟨.wt7, 4, 0b1111, 7⟩,
  ⟨.wt8, 5, 0b10011, 8⟩, ⟨.wt9, 5, 0b10100, 9⟩, ⟨.wt10, 5, 0b00111, 10⟩, ⟨.wt11, 5, 0b01000, 11⟩,
  ⟨.wt12, 6, 0b001000, 12⟩, ⟨.wt13, 6, 0b000011, 13⟩, ⟨.wt14, 6, 0b110100, 14⟩, ⟨.wt15, 6, 0b110101, 15⟩,
  ⟨.wt16, 6, 0b101010, 16⟩, ⟨.wt17, 6, 0b101011, 17⟩, ⟨.wt18, 7, 0b0100111, 18⟩, ⟨.wt19, 7, 0b0001100, 19⟩,
  ⟨.wt20, 7, 0b0001000, 20⟩, ⟨.wt21, 7, 0b0010111, 21⟩, ⟨.wt22, 7, 0b0000011, 22⟩, ⟨.wt23, 7, 0b0000100, 23⟩,
  ⟨.wt24, 7, 0b0101000, 24⟩, ⟨.wt25, 7, 0b0101011, 25⟩, ⟨.wt26, 7, 0b0010011, 26⟩, ⟨.wt27, 7, 0b0100100, 27⟩,
  ⟨.wt28, 7, 0b0011000, 28⟩, ⟨.wt29, 8, 0b00000010, 29⟩, ⟨.wt30, 8, 0b00000011, 30⟩,
  ⟨.wt31, 8, 0b00011010, 31⟩, ⟨.wt32, 8, 0b00011011, 32⟩, ⟨.wt33, 8, 0b00010010, 33⟩,
  ⟨.wt34, 8, 0b00010011, 34⟩, ⟨.wt35, 8, 0b00010100, 35⟩, ⟨.wt36, 8, 0b00010101, 36⟩,
  ⟨.wt37, 8, 0b00010110, 37⟩, ⟨.wt38, 8, 0b00010111, 38⟩, ⟨.wt39, 8, 0b00101000, 39⟩,
  ⟨.wt40, 8, 0b00101001, 40⟩, ⟨.wt41, 8, 0b00101010, 41⟩, ⟨.wt42, 8, 0b00101011, 42⟩,
  ⟨.wt43, 8, 0b00101100, 43⟩, ⟨.wt44, 8, 0b00101101, 44⟩, ⟨.wt45, 8, 0b00000100, 45⟩,
  ⟨.wt46, 8, 0b00000101, 46⟩, ⟨.wt47, 8, 0b00001010, 47⟩, ⟨.wt48, 8, 0b00001011, 48⟩,
  ⟨.wt49, 8, 0b01010010, 49⟩, ⟨.wt50, 8, 0b01010011, 50⟩, ⟨.wt51, 8, 0b01010100, 51⟩,
  ⟨.wt52, 8, 0b01010101, 52⟩, ⟨.wt53, 8, 0b00100100, 53⟩, ⟨.wt54, 8, 0b00100101, 54⟩,
  ⟨.wt55, 8, 0b01011000, 55⟩, ⟨.wt56, 8, 0b01011001, 56⟩, ⟨.wt57, 8, 0b01011010, 57⟩,
  ⟨.wt58, 8, 0b01011011, 58⟩, ⟨.wt59, 8, 0b01001010, 59⟩, ⟨.wt60, 8, 0b01001011, 60⟩,
  ⟨.wt61, 8, 0b00110010, 61⟩, ⟨.wt62, 8, 0b00110011, 62⟩, ⟨.wt63, 8, 0b00110100, 63⟩]

/-- White make-up codes (41_runlength.md rule R122). -/
def whiteMakeUp : List RunRow := [
  ⟨.wm64, 5, 0b11011, 64⟩, ⟨.wm128, 5, 0b10010, 128⟩, ⟨.wm192, 6, 0b010111, 192⟩,
  ⟨.wm256, 7, 0b0110111, 256⟩, ⟨.wm320, 8, 0b00110110, 320⟩, ⟨.wm384, 8, 0b00110111, 384⟩,
  ⟨.wm448, 8, 0b01100100, 448⟩, ⟨.wm512, 8, 0b01100101, 512⟩, ⟨.wm576, 8, 0b01101000, 576⟩,
  ⟨.wm640, 8, 0b01100111, 640⟩, ⟨.wm704, 9, 0b011001100, 704⟩, ⟨.wm768, 9, 0b011001101, 768⟩,
  ⟨.wm832, 9, 0b011010010, 832⟩, ⟨.wm896, 9, 0b011010011, 896⟩, ⟨.wm960, 9, 0b011010100, 960⟩,
  ⟨.wm1024, 9, 0b011010101, 1024⟩, ⟨.wm1088, 9, 0b011010110, 1088⟩, ⟨.wm1152, 9, 0b011010111, 1152⟩,
  ⟨.wm1216, 9, 0b011011000, 1216⟩, ⟨.wm1280, 9, 0b011011001, 1280⟩, ⟨.wm1344, 9, 0b011011010, 1344⟩,
  ⟨.wm1408, 9, 0b011011011, 1408⟩, ⟨.wm1472, 9, 0b010011000, 1472⟩, ⟨.wm1536, 9, 0b010011001, 1536⟩,
  ⟨.wm1600, 9, 0b010011010, 1600⟩, ⟨.wm1664, 6, 0b011000, 1664⟩, ⟨.wm1728, 9, 0b010011011, 1728⟩]

/-- Black terminating codes (41_runlength.md rule R123). -/
def blackTerminating : List RunRow := [
  ⟨.bt0, 10, 0b0000110111, 0⟩, ⟨.bt1, 3, 0b010, 1⟩, ⟨.bt2, 2, 0b11, 2⟩, ⟨.bt3, 2, 0b10, 3⟩,
  ⟨.bt4, 3, 0b011, 4⟩, ⟨.bt5, 4, 0b0011, 5⟩, ⟨.bt6, 4, 0b0010, 6⟩, ⟨.bt7, 5, 0b00011, 7⟩,
  ⟨.bt8, 6, 0b000101, 8⟩, ⟨.bt9, 6, 0b000100, 9⟩, ⟨.bt10, 7, 0b0000100, 10⟩, ⟨.bt11, 7, 0b0000101, 11⟩,
  ⟨.bt12, 7, 0b0000111, 12⟩, ⟨.bt13, 8, 0b00000100, 13⟩, ⟨.bt14, 8, 0b00000111, 14⟩,
  ⟨.bt15, 9, 0b000011000, 15⟩, ⟨.bt16, 10, 0b0000010111, 16⟩, ⟨.bt17, 10, 0b0000011000, 17⟩,
  ⟨.bt18, 10, 0b0000001000, 18⟩, ⟨.bt19, 11, 0b00001100111, 19⟩, ⟨.bt20, 11, 0b00001101000, 20⟩,
  ⟨.bt21, 11, 0b00001101100, 21⟩, ⟨.bt22, 11, 0b00000110111, 22⟩, ⟨.bt23, 11, 0b00000101000, 23⟩,
  ⟨.bt24, 11, 0b00000010111, 24⟩, ⟨.bt25, 11, 0b00000011000, 25⟩, ⟨.bt26, 12, 0b000011001010, 26⟩,
  ⟨.bt27, 12, 0b000011001011, 27⟩, ⟨.bt28, 12, 0b000011001100, 28⟩, ⟨.bt29, 12, 0b000011001101, 29⟩,
  ⟨.bt30, 12, 0b000001101000, 30⟩, ⟨.bt31, 12, 0b000001101001, 31⟩, ⟨.bt32, 12, 0b000001101010, 32⟩,
  ⟨.bt33, 12, 0b000001101011, 33⟩, ⟨.bt34, 12, 0b000011010010, 34⟩, ⟨.bt35, 12, 0b000011010011, 35⟩,
  ⟨.bt36, 12, 0b000011010100, 36⟩, ⟨.bt37, 12, 0b000011010101, 37⟩, ⟨.bt38, 12, 0b000011010110, 38⟩,
  ⟨.bt39, 12, 0b000011010111, 39⟩, ⟨.bt40, 12, 0b000001101100, 40⟩, ⟨.bt41, 12, 0b000001101101, 41⟩,
  ⟨.bt42, 12, 0b000011011010, 42⟩, ⟨.bt43, 12, 0b000011011011, 43⟩, ⟨.bt44, 12, 0b000001010100, 44⟩,
  ⟨.bt45, 12, 0b000001010101, 45⟩, ⟨.bt46, 12, 0b000001010110, 46⟩, ⟨.bt47, 12, 0b000001010111, 47⟩,
  ⟨.bt48, 12, 0b000001100100, 48⟩, ⟨.bt49, 12, 0b000001100101, 49⟩, ⟨.bt50, 12, 0b000001010010, 50⟩,
  ⟨.bt51, 12, 0b000001010011, 51⟩, ⟨.bt52, 12, 0b000000100100, 52⟩, ⟨.bt53, 12, 0b000000110111, 53⟩,
  ⟨.bt54, 12, 0b000000111000, 54⟩, ⟨.bt55, 12, 0b000000100111, 55⟩, ⟨.bt56, 12, 0b000000101000, 56⟩,
  ⟨.bt57, 12, 0b000001011000, 57⟩, ⟨.bt58, 12, 0b000001011001, 58⟩, ⟨.bt59, 12, 0b000000101011, 59⟩,
  ⟨.bt60, 12, 0b000000101100, 60⟩, ⟨.bt61, 12, 0b000001011010, 61⟩, ⟨.bt62, 12, 0b000001100110, 62⟩,
  ⟨.bt63, 12, 0b000001100111, 63⟩]

/-- Black make-up codes (41_runlength.md rule R124). -/
def blackMakeUp : List RunRow := [
  ⟨.bm64, 10, 0b0000001111, 64⟩, ⟨.bm128, 12, 0b000011001000, 128⟩, ⟨.bm192, 12, 0b000011001001, 192⟩,
  ⟨.bm256, 12, 0b000001011011, 256⟩, ⟨.bm320, 12, 0b000000110011, 320⟩, ⟨.bm384, 12, 0b000000110100, 384⟩,
  ⟨.bm448, 12, 0b000000110101, 448⟩, ⟨.bm512, 13, 0b0000001101100, 512⟩, ⟨.bm576, 13, 0b0000001101101, 576⟩,
  ⟨.bm640, 13, 0b0000001001010, 640⟩, ⟨.bm704, 13, 0b0000001001011, 704⟩, ⟨.bm768, 13, 0b0000001001100, 768⟩,
  ⟨.bm832, 13, 0b0000001001101, 832⟩, ⟨.bm896, 13, 0b0000001110010, 896⟩, ⟨.bm960, 13, 0b0000001110011, 960⟩,
  ⟨.bm1024, 13, 0b0000001110100, 1024⟩, ⟨.bm1088, 13, 0b0000001110101, 1088⟩,
  ⟨.bm1152, 13, 0b0000001110110, 1152⟩, ⟨.bm1216, 13, 0b0000001110111, 1216⟩,
  ⟨.bm1280, 13, 0b0000001010010, 1280⟩, ⟨.bm1344, 13, 0b0000001010011, 1344⟩,
  ⟨.bm1408, 13, 0b0000001010100, 1408⟩, ⟨.bm1472, 13, 0b0000001010101, 1472⟩,
  ⟨.bm1536, 13, 0b0000001011010, 1536⟩, ⟨.bm1600, 13, 0b0000001011011, 1600⟩,
  ⟨.bm1664, 13, 0b0000001100100, 1664⟩, ⟨.bm1728, 13, 0b0000001100101, 1728⟩]

/-- Extended make-up codes, of both colours (41_runlength.md rule R125). -/
def extendedMakeUp : List RunRow := [
  ⟨.xm1792, 11, 0b00000001000, 1792⟩, ⟨.xm1856, 11, 0b00000001100, 1856⟩, ⟨.xm1920, 11, 0b00000001101, 1920⟩,
  ⟨.xm1984, 12, 0b000000010010, 1984⟩, ⟨.xm2048, 12, 0b000000010011, 2048⟩,
  ⟨.xm2112, 12, 0b000000010100, 2112⟩, ⟨.xm2176, 12, 0b000000010101, 2176⟩,
  ⟨.xm2240, 12, 0b000000010110, 2240⟩, ⟨.xm2304, 12, 0b000000010111, 2304⟩,
  ⟨.xm2368, 12, 0b000000011100, 2368⟩, ⟨.xm2432, 12, 0b000000011101, 2432⟩,
  ⟨.xm2496, 12, 0b000000011110, 2496⟩, ⟨.xm2560, 12, 0b000000011111, 2560⟩]

/-- `T_White` and `T_Black` (41_runlength.md rule R120): 104 code words each. -/
def runRows : Colour → List RunRow
  | .white => whiteTerminating ++ whiteMakeUp ++ extendedMakeUp
  | .black => blackTerminating ++ blackMakeUp ++ extendedMakeUp

/-- A codebook as the binary tree of its code words, branching on the bits in the order they are read. The
bits read so far are the path to a subtree. -/
inductive Codebook
  /-- The bits read are the start of no code word. -/
  | dead
  /-- The bits read are this code word. -/
  | word (i : Instr)
  /-- The bits read are the start of a code word: another bit is read. -/
  | more (zero one : Codebook)
  deriving DecidableEq, Repr

/-- The codebook with a code word added at a bit string. -/
def Codebook.insert (i : Instr) : List Bool → Codebook → Codebook
  | [], _ => .word i
  | false :: bs, .more zero one => .more (Codebook.insert i bs zero) one
  | true :: bs, .more zero one => .more zero (Codebook.insert i bs one)
  | false :: bs, _ => .more (Codebook.insert i bs .dead) .dead
  | true :: bs, _ => .more .dead (Codebook.insert i bs .dead)

/-- What the codebook says after one more bit. -/
def Codebook.next : Codebook → Bool → Codebook
  | .more zero one, b => if b then one else zero
  | _, _ => .dead

/-- The mode codebook, before any bit is read. -/
def modeBook : Codebook :=
  modeRows.foldr (fun r t => t.insert r.instr (bin r.bits r.len)) .dead

/-- The run-length codebook of one colour, before any bit is read. -/
def runBook (c : Colour) : Codebook :=
  (runRows c).foldr (fun r t => t.insert r.instr (bin r.bits r.len)) .dead

/-- The codebook of a context (30_encoding.md rule R80). -/
def codebook : Context → Codebook
  | .mode => modeBook
  | .run c => runBook c

/-- The error kind of a bit string that starts no code word: InvalidEOFB in the mode context
(43_mode_decoder.md rule R153: a string that starts no mode code has left the EOFB pattern after seven
zeros), UnknownCode in the run context (41_runlength.md rule R128). -/
def deadKind : Context → ErrKind
  | .mode => .invalidEofb
  | .run _ => .unknownCode

/-! ## Reading one code word -/

/-- The outcome of decoding one code word from a bit string. -/
inductive Decoded
  /-- A code word, and the bits after it. -/
  | word (i : Instr) (rest : List Bool)
  /-- No code word starts with these bits: the error kind, and the bits not read. -/
  | dead (e : ErrKind) (rest : List Bool)
  /-- The bits ended inside a code word (or before its first bit). -/
  | short
  deriving DecidableEq, Repr

/-- Reads bits one at a time until they are a code word, the start of none, or at an end
(30_encoding.md rule R88, 41_runlength.md rule R129: after each bit a match is tested first, then a dead
prefix, then the next bit is read). The codebook stands at the bits already read. -/
def scan (e : ErrKind) (book : Codebook) : List Bool → Decoded
  | [] => .short
  | b :: rest =>
    match book.next b with
    | .word i => .word i rest
    | .dead => .dead e rest
    | .more zero one => scan e (.more zero one) rest

/-- The decoder: one code word of a context from the front of a bit string. -/
def decode (ctx : Context) (bits : List Bool) : Decoded :=
  scan (deadKind ctx) (codebook ctx) bits

/-! ## The encoder of code words -/

/-- The bit string of each code word, first-transmitted bit first (30_encoding.md rule R81, 41_runlength.md
rules R121 to R125). Of an Extension only the prefix has a meaning, and only the prefix is written. -/
def encode : Instr → List Bool
  | .p => bin 0b0001 4 | .h => bin 0b001 3 | .v0 => bin 0b1 1 | .vr1 => bin 0b011 3 | .vr2 => bin 0b000011 6
  | .vr3 => bin 0b0000011 7 | .vl1 => bin 0b010 3 | .vl2 => bin 0b000010 6 | .vl3 => bin 0b0000010 7
  | .ext2d => bin 0b0000001 7 | .ext1d => bin 0b000000001 9 | .eofb => bin 0b000000000001000000000001 24
  | .wt0 => bin 0b00110101 8 | .wt1 => bin 0b000111 6 | .wt2 => bin 0b0111 4 | .wt3 => bin 0b1000 4
  | .wt4 => bin 0b1011 4 | .wt5 => bin 0b1100 4 | .wt6 => bin 0b1110 4 | .wt7 => bin 0b1111 4
  | .wt8 => bin 0b10011 5 | .wt9 => bin 0b10100 5 | .wt10 => bin 0b00111 5 | .wt11 => bin 0b01000 5
  | .wt12 => bin 0b001000 6 | .wt13 => bin 0b000011 6 | .wt14 => bin 0b110100 6 | .wt15 => bin 0b110101 6
  | .wt16 => bin 0b101010 6 | .wt17 => bin 0b101011 6 | .wt18 => bin 0b0100111 7 | .wt19 => bin 0b0001100 7
  | .wt20 => bin 0b0001000 7 | .wt21 => bin 0b0010111 7 | .wt22 => bin 0b0000011 7 | .wt23 => bin 0b0000100 7
  | .wt24 => bin 0b0101000 7 | .wt25 => bin 0b0101011 7 | .wt26 => bin 0b0010011 7 | .wt27 => bin 0b0100100 7
  | .wt28 => bin 0b0011000 7 | .wt29 => bin 0b00000010 8 | .wt30 => bin 0b00000011 8
  | .wt31 => bin 0b00011010 8 | .wt32 => bin 0b00011011 8 | .wt33 => bin 0b00010010 8
  | .wt34 => bin 0b00010011 8 | .wt35 => bin 0b00010100 8 | .wt36 => bin 0b00010101 8
  | .wt37 => bin 0b00010110 8 | .wt38 => bin 0b00010111 8 | .wt39 => bin 0b00101000 8
  | .wt40 => bin 0b00101001 8 | .wt41 => bin 0b00101010 8 | .wt42 => bin 0b00101011 8
  | .wt43 => bin 0b00101100 8 | .wt44 => bin 0b00101101 8 | .wt45 => bin 0b00000100 8
  | .wt46 => bin 0b00000101 8 | .wt47 => bin 0b00001010 8 | .wt48 => bin 0b00001011 8
  | .wt49 => bin 0b01010010 8 | .wt50 => bin 0b01010011 8 | .wt51 => bin 0b01010100 8
  | .wt52 => bin 0b01010101 8 | .wt53 => bin 0b00100100 8 | .wt54 => bin 0b00100101 8
  | .wt55 => bin 0b01011000 8 | .wt56 => bin 0b01011001 8 | .wt57 => bin 0b01011010 8
  | .wt58 => bin 0b01011011 8 | .wt59 => bin 0b01001010 8 | .wt60 => bin 0b01001011 8
  | .wt61 => bin 0b00110010 8 | .wt62 => bin 0b00110011 8 | .wt63 => bin 0b00110100 8
  | .wm64 => bin 0b11011 5 | .wm128 => bin 0b10010 5 | .wm192 => bin 0b010111 6 | .wm256 => bin 0b0110111 7
  | .wm320 => bin 0b00110110 8 | .wm384 => bin 0b00110111 8 | .wm448 => bin 0b01100100 8
  | .wm512 => bin 0b01100101 8 | .wm576 => bin 0b01101000 8 | .wm640 => bin 0b01100111 8
  | .wm704 => bin 0b011001100 9 | .wm768 => bin 0b011001101 9 | .wm832 => bin 0b011010010 9
  | .wm896 => bin 0b011010011 9 | .wm960 => bin 0b011010100 9 | .wm1024 => bin 0b011010101 9
  | .wm1088 => bin 0b011010110 9 | .wm1152 => bin 0b011010111 9 | .wm1216 => bin 0b011011000 9
  | .wm1280 => bin 0b011011001 9 | .wm1344 => bin 0b011011010 9 | .wm1408 => bin 0b011011011 9
  | .wm1472 => bin 0b010011000 9 | .wm1536 => bin 0b010011001 9 | .wm1600 => bin 0b010011010 9
  | .wm1664 => bin 0b011000 6 | .wm1728 => bin 0b010011011 9 | .bt0 => bin 0b0000110111 10
  | .bt1 => bin 0b010 3 | .bt2 => bin 0b11 2 | .bt3 => bin 0b10 2 | .bt4 => bin 0b011 3
  | .bt5 => bin 0b0011 4 | .bt6 => bin 0b0010 4 | .bt7 => bin 0b00011 5 | .bt8 => bin 0b000101 6
  | .bt9 => bin 0b000100 6 | .bt10 => bin 0b0000100 7 | .bt11 => bin 0b0000101 7 | .bt12 => bin 0b0000111 7
  | .bt13 => bin 0b00000100 8 | .bt14 => bin 0b00000111 8 | .bt15 => bin 0b000011000 9
  | .bt16 => bin 0b0000010111 10 | .bt17 => bin 0b0000011000 10 | .bt18 => bin 0b0000001000 10
  | .bt19 => bin 0b00001100111 11 | .bt20 => bin 0b00001101000 11 | .bt21 => bin 0b00001101100 11
  | .bt22 => bin 0b00000110111 11 | .bt23 => bin 0b00000101000 11 | .bt24 => bin 0b00000010111 11
  | .bt25 => bin 0b00000011000 11 | .bt26 => bin 0b000011001010 12 | .bt27 => bin 0b000011001011 12
  | .bt28 => bin 0b000011001100 12 | .bt29 => bin 0b000011001101 12 | .bt30 => bin 0b000001101000 12
  | .bt31 => bin 0b000001101001 12 | .bt32 => bin 0b000001101010 12 | .bt33 => bin 0b000001101011 12
  | .bt34 => bin 0b000011010010 12 | .bt35 => bin 0b000011010011 12 | .bt36 => bin 0b000011010100 12
  | .bt37 => bin 0b000011010101 12 | .bt38 => bin 0b000011010110 12 | .bt39 => bin 0b000011010111 12
  | .bt40 => bin 0b000001101100 12 | .bt41 => bin 0b000001101101 12 | .bt42 => bin 0b000011011010 12
  | .bt43 => bin 0b000011011011 12 | .bt44 => bin 0b000001010100 12 | .bt45 => bin 0b000001010101 12
  | .bt46 => bin 0b000001010110 12 | .bt47 => bin 0b000001010111 12 | .bt48 => bin 0b000001100100 12
  | .bt49 => bin 0b000001100101 12 | .bt50 => bin 0b000001010010 12 | .bt51 => bin 0b000001010011 12
  | .bt52 => bin 0b000000100100 12 | .bt53 => bin 0b000000110111 12 | .bt54 => bin 0b000000111000 12
  | .bt55 => bin 0b000000100111 12 | .bt56 => bin 0b000000101000 12 | .bt57 => bin 0b000001011000 12
  | .bt58 => bin 0b000001011001 12 | .bt59 => bin 0b000000101011 12 | .bt60 => bin 0b000000101100 12
  | .bt61 => bin 0b000001011010 12 | .bt62 => bin 0b000001100110 12 | .bt63 => bin 0b000001100111 12
  | .bm64 => bin 0b0000001111 10 | .bm128 => bin 0b000011001000 12 | .bm192 => bin 0b000011001001 12
  | .bm256 => bin 0b000001011011 12 | .bm320 => bin 0b000000110011 12 | .bm384 => bin 0b000000110100 12
  | .bm448 => bin 0b000000110101 12 | .bm512 => bin 0b0000001101100 13 | .bm576 => bin 0b0000001101101 13
  | .bm640 => bin 0b0000001001010 13 | .bm704 => bin 0b0000001001011 13 | .bm768 => bin 0b0000001001100 13
  | .bm832 => bin 0b0000001001101 13 | .bm896 => bin 0b0000001110010 13 | .bm960 => bin 0b0000001110011 13
  | .bm1024 => bin 0b0000001110100 13 | .bm1088 => bin 0b0000001110101 13 | .bm1152 => bin 0b0000001110110 13
  | .bm1216 => bin 0b0000001110111 13 | .bm1280 => bin 0b0000001010010 13 | .bm1344 => bin 0b0000001010011 13
  | .bm1408 => bin 0b0000001010100 13 | .bm1472 => bin 0b0000001010101 13 | .bm1536 => bin 0b0000001011010 13
  | .bm1600 => bin 0b0000001011011 13 | .bm1664 => bin 0b0000001100100 13 | .bm1728 => bin 0b0000001100101 13
  | .xm1792 => bin 0b00000001000 11 | .xm1856 => bin 0b00000001100 11 | .xm1920 => bin 0b00000001101 11
  | .xm1984 => bin 0b000000010010 12 | .xm2048 => bin 0b000000010011 12 | .xm2112 => bin 0b000000010100 12
  | .xm2176 => bin 0b000000010101 12 | .xm2240 => bin 0b000000010110 12 | .xm2304 => bin 0b000000010111 12
  | .xm2368 => bin 0b000000011100 12 | .xm2432 => bin 0b000000011101 12 | .xm2496 => bin 0b000000011110 12
  | .xm2560 => bin 0b000000011111 12

/-! ## The table's words -/

/-- Decodes a bit string that is one whole row of the context: one code word and nothing after it, or an
Extension prefix and its three `xxx` bits (30_encoding.md rule R84). -/
def decodeWhole (ctx : Context) (bits : List Bool) : Option Instr :=
  match decode ctx bits with
  | .word i rest => if rest.length = (if i = .ext2d ∨ i = .ext1d then 3 else 0) then some i else none
  | _ => none

/-- The context a row of the opcode table is read in. The stream does not carry it (30_encoding.md rule
R80): the mode context, the white table and the black table are tried in that order for one in which the
bits are one whole row, and the mode context stands where none is. -/
def tableContext (bits : List Bool) : Context :=
  if (decodeWhole .mode bits).isSome then .mode
  else if (decodeWhole (.run .white) bits).isSome then .run .white
  else if (decodeWhole (.run .black) bits).isSome then .run .black
  else .mode

/-- The instruction the decoder reads from a row of spec/opcode_table.json whose `nbits`
bits are the number `w`, first bit most significant. -/
def decodeTableWord (nbits w : Nat) : Option Instr :=
  match decode (tableContext (bin w nbits)) (bin w nbits) with
  | .word i _ => some i
  | _ => none

end Sys2Proof
end

