-- ==== Sys2Proof/Machine/State.lean ====
section
/-! DEFINITION. The state of the codec core (10_state.md, 20_memory.md) as plain data, with the host's pending
accesses, the reasons a step can stop, and the state after reset (10_state.md rule R44). -/

namespace Sys2Proof.Machine

/-- The two jobs (00_scope.md rule R15, 10_state.md rule R26). -/
inductive Job
  | decode
  | encode
  deriving DecidableEq, Repr

/-- `STATUS` (10_state.md rule R34), with the job a BUSY core runs. `STATE` and `ERR` are read off it, so that
`ERR` differs from NONE exactly when `STATE` is ERROR (log 11). -/
inductive Status
  /-- No job since reset. -/
  | idle
  /-- A job is running. -/
  | busy (j : Job)
  /-- The last job ended successfully. -/
  | done
  /-- The last job ended with an error. -/
  | error (e : ErrKind)
  deriving DecidableEq, Repr

/-- Where a Horizontal pair stands (10_state.md rule R37, 43_mode_decoder.md rule R158): the transient state of
one step, `mode` between steps. -/
inductive Phase
  /-- At a mode decision. -/
  | mode
  /-- In the first run, with the run accumulator `tot` (41_runlength.md rule R127). -/
  | run1 (tot : Nat)
  /-- In the second run, with the first run's length and the run accumulator `tot`. -/
  | run2 (r1 tot : Nat)
  deriving DecidableEq, Repr

/-- An access of the host (20_memory.md rule R66), between two steps of the core. -/
inductive HostOp
  /-- Let the core take a step. -/
  | wait
  /-- Write the host-visible register `no` (10_state.md section 2). -/
  | writeReg (no : Nat) (v : Reg)
  /-- Read the host-visible register `no`. -/
  | readReg (no : Nat)
  /-- Write a byte of `IN` (20_memory.md rule R61). -/
  | writeIn (addr : Nat) (v : Byte)
  /-- Write a byte of `OUT` (20_memory.md rules R62 and R69). -/
  | writeOut (addr : Nat) (v : Byte)
  /-- Read a byte of `OUT` (20_memory.md rule R68). -/
  | readOut (addr : Nat)
  /-- Read a cell of `CA` (20_memory.md rule R64). -/
  | readCa (idx : Nat)
  /-- Reset (70_reset_and_hazards.md rule R220). -/
  | reset
  deriving DecidableEq, Repr

/-- What the host's last read gave. -/
inductive HostData
  | none
  | word (v : Reg)
  | byte (v : Byte)
  | colour (c : Colour)
  deriving DecidableEq, Repr

/-- The state of the machine. The first part is 10_state.md and 20_memory.md; the last three fields are the
model's own (log 1, 2, 7). -/
structure State where
  /-- The instance's parameters (00_scope.md rule R9). -/
  params : Params
  /-- `CFG_WIDTH` (10_state.md rule R21). -/
  cfgWidth : Reg
  /-- `CFG_MODE`: bit 0 `ORDER`, bit 1 `STORE` (rule R22). -/
  cfgMode : Reg
  /-- `CFG_SKIP_LEAD` (rule R23). -/
  cfgSkipLead : Reg
  /-- `CFG_SKIP_TAIL` (rule R23). -/
  cfgSkipTail : Reg
  /-- `CFG_IN_LEN` (rule R25). -/
  cfgInLen : Reg
  /-- `STATUS` (rule R34). -/
  status : Status
  /-- `LINES` (rule R35). -/
  lines : Nat
  /-- `OUT_LEN` (rules R36 and R39). -/
  outLen : Nat
  /-- The bit order latched at START (40_bitio.md rules R100 and R101): `false` is MSB-first. -/
  order : Bool
  /-- `pos`, the input bit cursor (rule R24). -/
  pos : Nat
  /-- `a0`, the coding position (rule R29). -/
  a0 : Nat
  /-- `color`, the current coding colour (rule R30). -/
  color : Colour
  /-- The transient state of a Horizontal pair (rule R37). -/
  phase : Phase
  /-- `rpos`, the encoder's source bit cursor (rule R38). -/
  rpos : Nat
  /-- `y`, the source line being coded (rule R38). -/
  y : Nat
  /-- `acc`, the bits of the packer's byte in progress; `nacc` is its length (rule R39). -/
  acc : List Bool
  /-- `sel`: which buffer is the reference line (rule R27). -/
  sel : Bool
  /-- `BUF0`: the cells `0..W` a job uses (rule R27; log 6). -/
  buf0 : List Colour
  /-- `BUF1`. -/
  buf1 : List Colour
  /-- `S`, the lines the Scanline Store has received (rule R40). -/
  store : List (List Colour)
  /-- `IN` (20_memory.md rule R61). -/
  inMem : List Host.Cell
  /-- `OUT` (20_memory.md rule R62). -/
  outMem : List Host.Cell
  /-- `CA` (20_memory.md rule R64). -/
  ca : List Colour
  /-- The host's accesses not made yet, the next one first. -/
  hostOps : List HostOp
  /-- What the host's last read gave. -/
  hostData : HostData
  /-- The counter a free value is applied to. -/
  fresh : Nat
  deriving DecidableEq, Repr

/-- The faults: an access outside a space the spec gives, and the guard of the decode loop. All are safe: the
model stops where the spec gives no outcome. -/
inductive Fault
  /-- A host access to a register number above 8 (10_state.md section 2 numbers nine registers); raised by
  `hostReadReg` and `hostWriteReg`. Safe. -/
  | noSuchRegister
  /-- A host write of `IN` at or beyond `P_MAX_IN_BYTES` (20_memory.md rule R61); raised by `hostWriteIn`. Safe. -/
  | inAddress
  /-- A host read of `OUT` at or beyond `P_MAX_OUT_BYTES` (20_memory.md rule R62); raised by `hostReadOut`. Safe. -/
  | outAddress
  /-- A host read of `CA` at or beyond `P_MAX_OUT_BYTES` cells (20_memory.md rule R64); raised by `hostReadCa`. Safe. -/
  | caAddress
  /-- The guard of the loop over the code words of one decode step; raised by `decodeLoop` when more code words
  than bits have been read, which never happens (43_mode_decoder.md rule R156). Safe. -/
  | noProgress
  deriving DecidableEq, Repr

/-- The refusals (60_exceptions.md rule R212: a refused action or condition has no meaning, and the run keeps a
refusal mark; the outcome `refused` is that mark, log 4). All are safe. -/
inductive Refusal
  /-- An instruction without a meaning yet: no arm answers it. Safe. -/
  | notModelled (mnemonic : String)
  /-- START while BUSY (10_state.md rule R26, R212); raised by `startJob`. Safe. -/
  | startWhileBusy
  /-- `CTRL.CMD = 3` (rule R26, R212); raised by `hostWriteReg`. Safe. -/
  | reservedCommand
  /-- START with `W = 0` or `W > P_MAX_WIDTH` (rules R21, R212); raised by `startJob`. Safe. -/
  | illegalWidth
  /-- START with `IN_LEN > P_MAX_IN_BYTES` (rules R25, R212); raised by `startJob`. Safe. -/
  | inputTooLong
  /-- START_ENCODE with `ORDER = 1` (rules R22, R212); raised by `startJob`. Safe. -/
  | encodeLsbFirst
  /-- A host write of `CFG_*` or `IN` while BUSY (20_memory.md rules R66, R69); raised by `hostWriteReg` and
  `hostWriteIn`. Safe. -/
  | hostWriteWhileBusy
  /-- A host read of `CFG_*`, `LINES`, `OUT_LEN`, `OUT` or `CA` that breaks a duty of 20_memory.md rule R66;
  raised by `hostReadReg`, `hostReadOut` and `hostReadCa` (log 13). Safe. -/
  | hostReadTooEarly
  /-- A host write of `OUT`, which only the packer writes (20_memory.md rules R62 and R69); raised by `hostStep`
  (log 16). Safe. -/
  | hostWriteOut
  /-- Output beyond `P_MAX_OUT_BYTES` (20_memory.md rules R62 and R64); raised by every operation that writes
  `OUT` or `CA`. Safe. -/
  | outputOverflow
  /-- WRITE_BITS with `count > P_WRITE_MAX` (40_bitio.md rule R107); raised by `writeBitsOp`. Safe. -/
  | writeTooWide
  /-- PEEK with `n > P_PEEK_MAX` (40_bitio.md rule R104); raised by `peekOp`. Safe. -/
  | peekTooWide
  /-- A run code outside a run of its colour, which no decoder reads there (30_encoding.md rules R80 and R92);
  raised by `runCode` (log 20). Safe. -/
  | runCodeOutsideRun
  deriving DecidableEq, Repr

/-- The three outcomes of a step of this machine. -/
abbrev Result := Host.Outcome State Fault Refusal

/-- The machine right after reset (10_state.md rule R44, 70_reset_and_hazards.md rules R220 and R221). What the
spec leaves unspecified there (line buffers, `IN`, `OUT`, `CA`) and the model's own fields are named in log
1, 2, 5, 6, 7, 9 and 10. -/
def State.reset : State where
  params := Config.params
  cfgWidth := 0
  cfgMode := 0
  cfgSkipLead := 0
  cfgSkipTail := 0
  cfgInLen := 0
  status := .idle
  lines := 0
  outLen := 0
  order := false
  pos := 0
  a0 := 0
  color := .white
  phase := .mode
  rpos := 0
  y := 0
  acc := []
  sel := false
  buf0 := []
  buf1 := []
  store := []
  inMem := []
  outMem := []
  ca := []
  hostOps := []
  hostData := .none
  fresh := 0

end Sys2Proof.Machine
end

