-- ==== Sys2Proof/Machine/Flags.lean ====
section
/-! DEFINITION. The only flag-like state of the core, `color` (10_state.md rule R30: no condition codes exist),
and the two counts and fields software reads as one word of `STATUS` (10_state.md rule R34). -/

namespace Sys2Proof.Machine

/-- `¬c`, the `invert` operation (00_scope.md rule R12). -/
def invert : Colour → Colour
  | .white => .black
  | .black => .white

/-- The code of an error kind in `STATUS.ERR` (60_exceptions.md rule R208). -/
def errCode : ErrKind → Nat
  | .endOfStream => 1
  | .outOfBounds => 2
  | .invalidEofb => 3
  | .extensionNotSupported => 4
  | .unknownCode => 5

/-- `STATUS.STATE` (10_state.md rule R34). -/
def statusState : Status → Nat
  | .idle => 0
  | .busy _ => 1
  | .done => 2
  | .error _ => 3

/-- `STATUS.ERR` (10_state.md rule R34): NONE = 0 but in ERROR. -/
def statusErr : Status → Nat
  | .error e => errCode e
  | _ => 0

/-- `STATUS` as a register: `STATE` in bits 1..0, `ERR` in bits 6..4, the other bits 0 (10_state.md section 2). -/
def statusWord (st : Status) : Reg :=
  BitVec.ofNat 32 (statusState st + 16 * statusErr st)

/-- The value of a pixel's bit in the packed bitmap (42_store.md rule R143). -/
def colourBit (blackBit : Bool) : Colour → Bool
  | .black => blackBit
  | .white => !blackBit

/-- The colour of a source bit of the encoder (20_memory.md rule R71). -/
def bitColour (blackBit b : Bool) : Colour :=
  if b = blackBit then .black else .white

end Sys2Proof.Machine
end

