-- ==== Sys2Proof/Machine/Ops.lean ====
section
/-! DEFINITION. The named operations over the memories and registers: byte memories in canonical form, the
line buffers, the unpacker and the packer (40_bitio.md), the Scanline Store (42_store.md), and the one way a
job ends, with success or with an error (60_exceptions.md rules R200 and R201). -/

namespace Sys2Proof.Machine

/-! ## Byte memories -/

/-- What an address that is not listed reads as (log 5). -/
def Memory.unlisted : Byte := 0

/-- The byte at an address. -/
def Memory.read : List Host.Cell → Nat → Byte
  | [], _ => Memory.unlisted
  | (b, w) :: m, a => if a = b then w else Memory.read m a

/-- The memory with a byte written, in canonical form: a byte equal to what an unlisted address reads as is
not listed. -/
def Memory.write : List Host.Cell → Nat → Byte → List Host.Cell
  | [], a, v => if v = Memory.unlisted then [] else [(a, v)]
  | (b, w) :: m, a, v =>
    if a < b then if v = Memory.unlisted then (b, w) :: m else (a, v) :: (b, w) :: m
    else if a = b then if v = Memory.unlisted then m else (a, v) :: m
    else (b, w) :: Memory.write m a v

/-- The canonical form: addresses strictly rising, and no entry that an unlisted address would read as. -/
abbrev Memory.wf (m : List Host.Cell) : Prop :=
  m.Pairwise (fun x y => x.1 < y.1) ∧ ∀ x ∈ m, x.2 ≠ Memory.unlisted

/-! ## Configuration and line buffers -/

/-- `W`, the pixels of a scanline (10_state.md rule R21). -/
def State.width (s : State) : Nat := s.cfgWidth.toNat

/-- `IN_LEN` (10_state.md rule R25). -/
def State.inLen (s : State) : Nat := s.cfgInLen.toNat

/-- `CFG_MODE.ORDER` (10_state.md rule R22). -/
def State.cfgOrder (s : State) : Bool := s.cfgMode.getLsbD 0

/-- `CFG_MODE.STORE`: `false` the packed bitmap, `true` the colour array (10_state.md rule R22). -/
def State.colourStore (s : State) : Bool := s.cfgMode.getLsbD 1

/-- `nacc` (10_state.md rule R39). -/
def State.nacc (s : State) : Nat := s.acc.length

/-- The reference line `BUF[sel]` (10_state.md rule R27). -/
def State.ref (s : State) : List Colour := if s.sel then s.buf1 else s.buf0

/-- The current line `BUF[1 − sel]` (10_state.md rule R27). -/
def State.cur (s : State) : List Colour := if s.sel then s.buf0 else s.buf1

/-- The state with another current line. -/
def State.setCur (s : State) (l : List Colour) : State :=
  { s with buf0 := if s.sel then l else s.buf0, buf1 := if s.sel then s.buf1 else l }

/-- `L[p]` (10_state.md rule R27). A line of a job holds the cells `0..W`, and no rule reads another (log 6). -/
def cell (l : List Colour) (p : Nat) : Colour := l.getD p .white

/-- `Fill(L, s, e, c)`: cells `s .. e−1` take the colour `c` (43_mode_decoder.md rule R152). -/
def fill (l : List Colour) (s e : Nat) (c : Colour) : List Colour :=
  l.mapIdx fun p x => if s ≤ p ∧ p < e then c else x

/-- `NEW_ROW(W)`: a blank line of `W + 1` White cells (42_store.md rule R142). -/
def newRow (w : Nat) : List Colour := List.replicate (w + 1) .white

/-- The scanline `L[1..W]` of a line buffer, without cell 0 (42_store.md rule R143). -/
def scanline (w : Nat) (l : List Colour) : List Colour :=
  (List.range w).map fun x => cell l (x + 1)

/-! ## The unpacker (40_bitio.md section 1) -/

/-- `bit(i)`: bit `i` of the input in the latched order (20_memory.md rule R60). -/
def State.bit (s : State) (i : Nat) : Bool :=
  (Memory.read s.inMem (i / 8)).getLsbD (if s.order then i % 8 else 7 - i % 8)

/-- How many bits the unpacker has not delivered yet. -/
def State.bitsLeft (s : State) : Nat := 8 * s.inLen - s.pos

/-- The `n` bits of the input from bit `p` on. -/
def State.bitsFrom (s : State) (p : Nat) : Nat → List Bool
  | 0 => []
  | n + 1 => s.bit p :: s.bitsFrom (p + 1) n

/-- The bits the unpacker has not delivered yet, the next one first (40_bitio.md rule R100). -/
def State.stream (s : State) : List Bool := s.bitsFrom s.pos s.bitsLeft

/-- NEXT: the next bit and the state after it, or `none` exactly at the end of the input, with `pos` unchanged
(40_bitio.md rule R102). -/
def State.next (s : State) : Option (Bool × State) :=
  if s.pos < 8 * s.inLen then some (s.bit s.pos, { s with pos := s.pos + 1 }) else none

/-- ReadBit(): NEXT, with the end of the input raised as EndOfStream (40_bitio.md rule R103). -/
def State.readBit (s : State) : Except ErrKind (Bool × State) :=
  match s.next with
  | some r => .ok r
  | none => .error .endOfStream

/-- The bits PEEK(n) returns (40_bitio.md rule R104): at most `n`, fewer where fewer are left. -/
def State.peek (s : State) (n : Nat) : List Bool :=
  s.bitsFrom s.pos (min n s.bitsLeft)

/-- PEEK(n) (40_bitio.md rule R104): refused beyond `P_PEEK_MAX`, and no state is written. -/
def peekOp (n : Nat) (s : State) : Except Refusal (List Bool) :=
  if n ≤ Config.peekMax then .ok (s.peek n) else .error .peekTooWide

/-! ## The packer (40_bitio.md section 2)

`none` says that the byte would not fit `OUT` (20_memory.md rule R62: refused). -/

/-- The byte of eight bits, first bit most significant (40_bitio.md rule R105). -/
def packByte (bits : List Bool) : Byte :=
  BitVec.ofNat 8 (bits.foldl (fun v b => 2 * v + b.toNat) 0)

/-- MemWrite(OUT_LEN, 1, v) and the increment of `OUT_LEN` (20_memory.md rule R62). -/
def State.appendByte (s : State) (v : Byte) : Option State :=
  if s.outLen < s.params.maxOutBytes then
    some { s with outMem := Memory.write s.outMem s.outLen v, outLen := s.outLen + 1 }
  else none

/-- WRITE(b), also WriteBit(b) (40_bitio.md rule R106). -/
def State.writeBit (s : State) (b : Bool) : Option State :=
  if s.acc.length + 1 = 8 then { s with acc := [] }.appendByte (packByte (s.acc ++ [b]))
  else some { s with acc := s.acc ++ [b] }

/-- WRITE of each bit of a bit string, first bit first. -/
def State.writeBits (s : State) : List Bool → Option State
  | [] => some s
  | b :: bs =>
    match s.writeBit b with
    | some t => t.writeBits bs
    | none => none

/-- FLUSH: the byte in progress is padded with zero bits (40_bitio.md rule R108). -/
def State.flush (s : State) : Option State :=
  if s.acc.length = 0 then some s else s.writeBits (List.replicate (8 - s.acc.length) false)

/-- Goes on from an operation of the packer or the store, or refuses the job that overran its capacity
(60_exceptions.md rule R212). -/
def orOverflow (o : Option State) (k : State → Result) : Result :=
  match o with
  | some s => k s
  | none => .refused .outputOverflow

/-- WRITE_BITS(value, count): the low `count` bits of `value`, most significant first; refused beyond
`P_WRITE_MAX` (40_bitio.md rule R107). -/
def writeBitsOp (value count : Nat) (s : State) : Result :=
  if count ≤ Config.writeMax then orOverflow (s.writeBits (bin value count)) .next
  else .refused .writeTooWide

/-- DONE: FLUSH, after which the result is `OUT[0 .. OUT_LEN − 1]` (40_bitio.md rule R109). -/
def doneOp (s : State) : Result := orOverflow s.flush .next

/-! ## The Scanline Store (42_store.md) -/

/-- Appends a scanline to `CA`, within its capacity (20_memory.md rule R64, 42_store.md rule R145). -/
def State.appendCa (s : State) (row : List Colour) : Option State :=
  if s.ca.length + row.length ≤ s.params.maxOutBytes then some { s with ca := s.ca ++ row } else none

/-- EXTEND, Push(L): the completed scanline goes to the store, and to `OUT` or `CA` (42_store.md rule R143). -/
def State.push (s : State) (row : List Colour) : Option State :=
  let t := { s with store := s.store ++ [row], lines := s.lines + 1 }
  if s.colourStore then t.appendCa row else t.writeBits (row.map (colourBit s.params.blackBit))

/-- LineComplete(): the current line is pushed and becomes the reference line, and a new line starts
(43_mode_decoder.md rule R170, 10_state.md rule R41). -/
def lineComplete (s : State) : Result :=
  orOverflow (s.push (scanline s.width s.cur)) fun t =>
    .next { t with sel := !t.sel, a0 := 0, color := .white }

/-! ## The end of a job -/

/-- Finalisation of the store: a decode job with the packed bitmap flushes the packer (42_store.md rule R146). -/
def State.finalise (s : State) : Option State :=
  if s.status = .busy .decode ∧ s.colourStore = false then s.flush else some s

/-- Successful end of a decode job: the store is finalised, then `STATE <- DONE` (60_exceptions.md rule R200). -/
def finishDecode (s : State) : Result :=
  orOverflow s.finalise fun t => .next { t with phase := .mode, status := .done }

/-- `raise E`: the transient state is discarded, a packed store is flushed, `ERR` and `STATE` are written
(60_exceptions.md rule R201). This is the core's only exception entry; there is no return (rule R211). -/
def raiseError (e : ErrKind) (s : State) : Result :=
  orOverflow s.finalise fun t => .next { t with phase := .mode, status := .error e }

end Sys2Proof.Machine
end

