-- ==== Sys2Proof/Machine/Operands.lean ====
section
/-! DEFINITION. The operands of the mode codes: the changing elements `b1`, `b2`, `a1`, `a2` (10_state.md rules
R31 to R33, 43_mode_decoder.md rule R154) and the greedy split of a run length into code words
(41_runlength.md rule R130). -/

namespace Sys2Proof.Machine

/-- `chg(L, p)`: position `p` is a changing element of the line (00_scope.md Glossary). -/
def changing (l : List Colour) (p : Nat) : Bool := decide (cell l p ≠ cell l (p - 1))

/-- The least position among the `n` from `p` on that satisfies `ok`. -/
def leastFrom (ok : Nat → Bool) (p : Nat) : Nat → Option Nat
  | 0 => none
  | n + 1 => if ok p then some p else leastFrom ok (p + 1) n

/-- `min ({ p | after < p ≤ W ∧ ok p } ∪ { W + 1 })` (00_scope.md rule R13). -/
def leastAfter (ok : Nat → Bool) (w after : Nat) : Nat :=
  (leastFrom ok (after + 1) (w - after)).getD (w + 1)

/-- `b1`: the first changing element of the reference line right of `a0` to a colour other than `color`
(10_state.md rule R31). -/
def State.b1 (s : State) : Nat :=
  leastAfter (fun p => changing s.ref p && decide (cell s.ref p ≠ s.color)) s.width s.a0

/-- `b2`: the next changing element of the reference line after `b1` (10_state.md rule R32). -/
def State.b2 (s : State) : Nat := leastAfter (changing s.ref) s.width s.b1

/-- `a1`: the next changing element of the coding line right of `a0` (10_state.md rule R33). -/
def State.a1 (s : State) : Nat := leastAfter (changing s.cur) s.width s.a0

/-- `a2`: the changing element of the coding line after `a1` (10_state.md rule R33). -/
def State.a2 (s : State) : Nat := leastAfter (changing s.cur) s.width s.a1

/-- `max(a0, 1)`: where the first run of a Horizontal pair starts (43_mode_decoder.md rule R158,
90_conflicts.md C1). -/
def State.runStart (s : State) : Nat := max s.a0 1

/-- The code word of value `v` in `T_c`, as a list of at most one (41_runlength.md rule R130). -/
def codeOfValue (c : Colour) (v : Nat) : List Instr :=
  (((runRows c).find? fun r => Nat.beq r.value v).map RunRow.instr).toList

/-- The loop of RunCodes, with at most `fuel` make-up codes: the largest make-up value first, then the
terminating code (41_runlength.md rule R130). -/
def runCodesLoop (c : Colour) : Nat → Nat → List Instr
  | 0, n => codeOfValue c n
  | fuel + 1, n =>
    if 64 ≤ n then
      codeOfValue c (min 2560 (64 * (n / 64))) ++ runCodesLoop c fuel (n - min 2560 (64 * (n / 64)))
    else codeOfValue c n

/-- RunCodes(c, n): the code words of a run of `n` pixels (41_runlength.md rule R130). Each make-up code takes at
least 64 from `n`, so there are at most `n / 64` of them. -/
def runCodes (c : Colour) (n : Nat) : List Instr := runCodesLoop c (n / 64) n

/-- The bits EmitRun(c, n) writes (41_runlength.md rule R131). -/
def runBits (c : Colour) (n : Nat) : List Bool := (runCodes c n).flatMap encode

end Sys2Proof.Machine
end

