-- ==== Sys2Proof/Machine/Modes.lean ====
section
/-! DEFINITION. The meanings of the mode codes: Pass, Horizontal, the seven Vertical codes, the two Extensions and
EOFB (43_mode_decoder.md rules R157 to R169). The line completion that may follow is the step's
(rule R150), not the mode's. -/

namespace Sys2Proof.Machine

/-! ## Pass -/

/-- `P` (43_mode_decoder.md rule R157). The bounds check never holds (90_conflicts.md C6). -/
def execP (s : State) : Result :=
  if s.width + 1 < s.b2 then raiseError .outOfBounds s
  else .next { s.setCur (fill s.cur s.a0 s.b2 s.color) with a0 := s.b2 }

/-! ## Horizontal -/

/-- `H`: the pair of runs starts with an empty run accumulator (43_mode_decoder.md rule R158). The run code
words that follow in the same step are its operands, and the terminating code of the second run closes it. -/
def execH (s : State) : Result :=
  .next { s with phase := .run1 0 }

/-- The effect of `H` once both runs are known: one bounds check, two fills, `a0 <- a2`, `color` unchanged
(43_mode_decoder.md rules R155 and R158). -/
def horizontal (r1 r2 : Nat) (s : State) : Result :=
  let a1 := s.runStart + r1
  let a2 := a1 + r2
  if s.width + 1 < a2 then raiseError .outOfBounds s
  else
    .next
      { s.setCur (fill (fill s.cur s.runStart a1 s.color) a1 a2 (invert s.color)) with a0 := a2, phase := .mode }

/-- A run code of value `v` of one table, or of both where `table` is `none`, in the run the pair stands in:
the value is added to `tot`, and a value below 64 ends the run (41_runlength.md rules R120 and R127). The
first run is of `color`, the second of its opposite (30_encoding.md rule R80). -/
def runCode (table : Option Colour) (v : Nat) (s : State) : Result :=
  match s.phase with
  | .mode => .refused .runCodeOutsideRun
  | .run1 tot =>
    if table = none ∨ table = some s.color then
      if v < 64 then .next { s with phase := .run2 (tot + v) 0 } else .next { s with phase := .run1 (tot + v) }
    else .refused .runCodeOutsideRun
  | .run2 r1 tot =>
    if table = none ∨ table = some (invert s.color) then
      if v < 64 then horizontal r1 (tot + v) s else .next { s with phase := .run2 r1 (tot + v) }
    else .refused .runCodeOutsideRun

/-! ## Vertical -/

/-- `VERT(k)`: `a1 = b1 + k` in the integers; out of bounds above `W + 1` and at or before `a0`; else a fill, the
colour inverted, `a0 <- a1` (43_mode_decoder.md rule R159). -/
def vertical (k : Int) (s : State) : Result :=
  let a1 : Int := (s.b1 : Int) + k
  if (s.width : Int) + 1 < a1 ∨ a1 ≤ (s.a0 : Int) then raiseError .outOfBounds s
  else
    .next
      { s.setCur (fill s.cur s.a0 a1.toNat s.color) with color := invert s.color, a0 := a1.toNat }

/-- `V0` (43_mode_decoder.md rule R160). -/
def execV0 (s : State) : Result := vertical 0 s

/-- `VR1` (43_mode_decoder.md rule R161). -/
def execVr1 (s : State) : Result := vertical 1 s

/-- `VR2` (43_mode_decoder.md rule R162). -/
def execVr2 (s : State) : Result := vertical 2 s

/-- `VR3` (43_mode_decoder.md rule R163). -/
def execVr3 (s : State) : Result := vertical 3 s

/-- `VL1` (43_mode_decoder.md rule R164). -/
def execVl1 (s : State) : Result := vertical (-1) s

/-- `VL2` (43_mode_decoder.md rule R165). -/
def execVl2 (s : State) : Result := vertical (-2) s

/-- `VL3` (43_mode_decoder.md rule R166). -/
def execVl3 (s : State) : Result := vertical (-3) s

/-! ## Extension and end of block -/

/-- `EXT2D` (43_mode_decoder.md rule R167): always fatal. -/
def execExt2d (s : State) : Result := raiseError .extensionNotSupported s

/-- `EXT1D` (43_mode_decoder.md rule R168): always fatal. -/
def execExt1d (s : State) : Result := raiseError .extensionNotSupported s

/-- `EOFB` (43_mode_decoder.md rules R169 and R172): the job ends with DONE, and a partial current line is not
pushed. -/
def execEofb (s : State) : Result := finishDecode s

end Sys2Proof.Machine
end

