-- ==== Sys2Proof/Machine/BlackRuns.lean ====
section
/-! DEFINITION. The meanings of the black run-length codes (41_runlength.md rules R123 and R124). -/

namespace Sys2Proof.Machine

/-- `BT0`: black terminating code of value 0 (41_runlength.md rule R123). -/
def execBt0 (s : State) : Result := runCode (some .black) 0 s

/-- `BT1`: black terminating code of value 1 (41_runlength.md rule R123). -/
def execBt1 (s : State) : Result := runCode (some .black) 1 s

/-- `BT2`: black terminating code of value 2 (41_runlength.md rule R123). -/
def execBt2 (s : State) : Result := runCode (some .black) 2 s

/-- `BT3`: black terminating code of value 3 (41_runlength.md rule R123). -/
def execBt3 (s : State) : Result := runCode (some .black) 3 s

/-- `BT4`: black terminating code of value 4 (41_runlength.md rule R123). -/
def execBt4 (s : State) : Result := runCode (some .black) 4 s

/-- `BT5`: black terminating code of value 5 (41_runlength.md rule R123). -/
def execBt5 (s : State) : Result := runCode (some .black) 5 s

/-- `BT6`: black terminating code of value 6 (41_runlength.md rule R123). -/
def execBt6 (s : State) : Result := runCode (some .black) 6 s

/-- `BT7`: black terminating code of value 7 (41_runlength.md rule R123). -/
def execBt7 (s : State) : Result := runCode (some .black) 7 s

/-- `BT8`: black terminating code of value 8 (41_runlength.md rule R123). -/
def execBt8 (s : State) : Result := runCode (some .black) 8 s

/-- `BT9`: black terminating code of value 9 (41_runlength.md rule R123). -/
def execBt9 (s : State) : Result := runCode (some .black) 9 s

/-- `BT10`: black terminating code of value 10 (41_runlength.md rule R123). -/
def execBt10 (s : State) : Result := runCode (some .black) 10 s

/-- `BT11`: black terminating code of value 11 (41_runlength.md rule R123). -/
def execBt11 (s : State) : Result := runCode (some .black) 11 s

/-- `BT12`: black terminating code of value 12 (41_runlength.md rule R123). -/
def execBt12 (s : State) : Result := runCode (some .black) 12 s

/-- `BT13`: black terminating code of value 13 (41_runlength.md rule R123). -/
def execBt13 (s : State) : Result := runCode (some .black) 13 s

/-- `BT14`: black terminating code of value 14 (41_runlength.md rule R123). -/
def execBt14 (s : State) : Result := runCode (some .black) 14 s

/-- `BT15`: black terminating code of value 15 (41_runlength.md rule R123). -/
def execBt15 (s : State) : Result := runCode (some .black) 15 s

/-- `BT16`: black terminating code of value 16 (41_runlength.md rule R123). -/
def execBt16 (s : State) : Result := runCode (some .black) 16 s

/-- `BT17`: black terminating code of value 17 (41_runlength.md rule R123). -/
def execBt17 (s : State) : Result := runCode (some .black) 17 s

/-- `BT18`: black terminating code of value 18 (41_runlength.md rule R123). -/
def execBt18 (s : State) : Result := runCode (some .black) 18 s

/-- `BT19`: black terminating code of value 19 (41_runlength.md rule R123). -/
def execBt19 (s : State) : Result := runCode (some .black) 19 s

/-- `BT20`: black terminating code of value 20 (41_runlength.md rule R123). -/
def execBt20 (s : State) : Result := runCode (some .black) 20 s

/-- `BT21`: black terminating code of value 21 (41_runlength.md rule R123). -/
def execBt21 (s : State) : Result := runCode (some .black) 21 s

/-- `BT22`: black terminating code of value 22 (41_runlength.md rule R123). -/
def execBt22 (s : State) : Result := runCode (some .black) 22 s

/-- `BT23`: black terminating code of value 23 (41_runlength.md rule R123). -/
def execBt23 (s : State) : Result := runCode (some .black) 23 s

/-- `BT24`: black terminating code of value 24 (41_runlength.md rule R123). -/
def execBt24 (s : State) : Result := runCode (some .black) 24 s

/-- `BT25`: black terminating code of value 25 (41_runlength.md rule R123). -/
def execBt25 (s : State) : Result := runCode (some .black) 25 s

/-- `BT26`: black terminating code of value 26 (41_runlength.md rule R123). -/
def execBt26 (s : State) : Result := runCode (some .black) 26 s

/-- `BT27`: black terminating code of value 27 (41_runlength.md rule R123). -/
def execBt27 (s : State) : Result := runCode (some .black) 27 s

/-- `BT28`: black terminating code of value 28 (41_runlength.md rule R123). -/
def execBt28 (s : State) : Result := runCode (some .black) 28 s

/-- `BT29`: black terminating code of value 29 (41_runlength.md rule R123). -/
def execBt29 (s : State) : Result := runCode (some .black) 29 s

/-- `BT30`: black terminating code of value 30 (41_runlength.md rule R123). -/
def execBt30 (s : State) : Result := runCode (some .black) 30 s

/-- `BT31`: black terminating code of value 31 (41_runlength.md rule R123). -/
def execBt31 (s : State) : Result := runCode (some .black) 31 s

/-- `BT32`: black terminating code of value 32 (41_runlength.md rule R123). -/
def execBt32 (s : State) : Result := runCode (some .black) 32 s

/-- `BT33`: black terminating code of value 33 (41_runlength.md rule R123). -/
def execBt33 (s : State) : Result := runCode (some .black) 33 s

/-- `BT34`: black terminating code of value 34 (41_runlength.md rule R123). -/
def execBt34 (s : State) : Result := runCode (some .black) 34 s

/-- `BT35`: black terminating code of value 35 (41_runlength.md rule R123). -/
def execBt35 (s : State) : Result := runCode (some .black) 35 s

/-- `BT36`: black terminating code of value 36 (41_runlength.md rule R123). -/
def execBt36 (s : State) : Result := runCode (some .black) 36 s

/-- `BT37`: black terminating code of value 37 (41_runlength.md rule R123). -/
def execBt37 (s : State) : Result := runCode (some .black) 37 s

/-- `BT38`: black terminating code of value 38 (41_runlength.md rule R123). -/
def execBt38 (s : State) : Result := runCode (some .black) 38 s

/-- `BT39`: black terminating code of value 39 (41_runlength.md rule R123). -/
def execBt39 (s : State) : Result := runCode (some .black) 39 s

/-- `BT40`: black terminating code of value 40 (41_runlength.md rule R123). -/
def execBt40 (s : State) : Result := runCode (some .black) 40 s

/-- `BT41`: black terminating code of value 41 (41_runlength.md rule R123). -/
def execBt41 (s : State) : Result := runCode (some .black) 41 s

/-- `BT42`: black terminating code of value 42 (41_runlength.md rule R123). -/
def execBt42 (s : State) : Result := runCode (some .black) 42 s

/-- `BT43`: black terminating code of value 43 (41_runlength.md rule R123). -/
def execBt43 (s : State) : Result := runCode (some .black) 43 s

/-- `BT44`: black terminating code of value 44 (41_runlength.md rule R123). -/
def execBt44 (s : State) : Result := runCode (some .black) 44 s

/-- `BT45`: black terminating code of value 45 (41_runlength.md rule R123). -/
def execBt45 (s : State) : Result := runCode (some .black) 45 s

/-- `BT46`: black terminating code of value 46 (41_runlength.md rule R123). -/
def execBt46 (s : State) : Result := runCode (some .black) 46 s

/-- `BT47`: black terminating code of value 47 (41_runlength.md rule R123). -/
def execBt47 (s : State) : Result := runCode (some .black) 47 s

/-- `BT48`: black terminating code of value 48 (41_runlength.md rule R123). -/
def execBt48 (s : State) : Result := runCode (some .black) 48 s

/-- `BT49`: black terminating code of value 49 (41_runlength.md rule R123). -/
def execBt49 (s : State) : Result := runCode (some .black) 49 s

/-- `BT50`: black terminating code of value 50 (41_runlength.md rule R123). -/
def execBt50 (s : State) : Result := runCode (some .black) 50 s

/-- `BT51`: black terminating code of value 51 (41_runlength.md rule R123). -/
def execBt51 (s : State) : Result := runCode (some .black) 51 s

/-- `BT52`: black terminating code of value 52 (41_runlength.md rule R123). -/
def execBt52 (s : State) : Result := runCode (some .black) 52 s

/-- `BT53`: black terminating code of value 53 (41_runlength.md rule R123). -/
def execBt53 (s : State) : Result := runCode (some .black) 53 s

/-- `BT54`: black terminating code of value 54 (41_runlength.md rule R123). -/
def execBt54 (s : State) : Result := runCode (some .black) 54 s

/-- `BT55`: black terminating code of value 55 (41_runlength.md rule R123). -/
def execBt55 (s : State) : Result := runCode (some .black) 55 s

/-- `BT56`: black terminating code of value 56 (41_runlength.md rule R123). -/
def execBt56 (s : State) : Result := runCode (some .black) 56 s

/-- `BT57`: black terminating code of value 57 (41_runlength.md rule R123). -/
def execBt57 (s : State) : Result := runCode (some .black) 57 s

/-- `BT58`: black terminating code of value 58 (41_runlength.md rule R123). -/
def execBt58 (s : State) : Result := runCode (some .black) 58 s

/-- `BT59`: black terminating code of value 59 (41_runlength.md rule R123). -/
def execBt59 (s : State) : Result := runCode (some .black) 59 s

/-- `BT60`: black terminating code of value 60 (41_runlength.md rule R123). -/
def execBt60 (s : State) : Result := runCode (some .black) 60 s

/-- `BT61`: black terminating code of value 61 (41_runlength.md rule R123). -/
def execBt61 (s : State) : Result := runCode (some .black) 61 s

/-- `BT62`: black terminating code of value 62 (41_runlength.md rule R123). -/
def execBt62 (s : State) : Result := runCode (some .black) 62 s

/-- `BT63`: black terminating code of value 63 (41_runlength.md rule R123). -/
def execBt63 (s : State) : Result := runCode (some .black) 63 s

/-- `BM64`: black make-up code of value 64 (41_runlength.md rule R124). -/
def execBm64 (s : State) : Result := runCode (some .black) 64 s

/-- `BM128`: black make-up code of value 128 (41_runlength.md rule R124). -/
def execBm128 (s : State) : Result := runCode (some .black) 128 s

/-- `BM192`: black make-up code of value 192 (41_runlength.md rule R124). -/
def execBm192 (s : State) : Result := runCode (some .black) 192 s

/-- `BM256`: black make-up code of value 256 (41_runlength.md rule R124). -/
def execBm256 (s : State) : Result := runCode (some .black) 256 s

/-- `BM320`: black make-up code of value 320 (41_runlength.md rule R124). -/
def execBm320 (s : State) : Result := runCode (some .black) 320 s

/-- `BM384`: black make-up code of value 384 (41_runlength.md rule R124). -/
def execBm384 (s : State) : Result := runCode (some .black) 384 s

/-- `BM448`: black make-up code of value 448 (41_runlength.md rule R124). -/
def execBm448 (s : State) : Result := runCode (some .black) 448 s

/-- `BM512`: black make-up code of value 512 (41_runlength.md rule R124). -/
def execBm512 (s : State) : Result := runCode (some .black) 512 s

/-- `BM576`: black make-up code of value 576 (41_runlength.md rule R124). -/
def execBm576 (s : State) : Result := runCode (some .black) 576 s

/-- `BM640`: black make-up code of value 640 (41_runlength.md rule R124). -/
def execBm640 (s : State) : Result := runCode (some .black) 640 s

/-- `BM704`: black make-up code of value 704 (41_runlength.md rule R124). -/
def execBm704 (s : State) : Result := runCode (some .black) 704 s

/-- `BM768`: black make-up code of value 768 (41_runlength.md rule R124). -/
def execBm768 (s : State) : Result := runCode (some .black) 768 s

/-- `BM832`: black make-up code of value 832 (41_runlength.md rule R124). -/
def execBm832 (s : State) : Result := runCode (some .black) 832 s

/-- `BM896`: black make-up code of value 896 (41_runlength.md rule R124). -/
def execBm896 (s : State) : Result := runCode (some .black) 896 s

/-- `BM960`: black make-up code of value 960 (41_runlength.md rule R124). -/
def execBm960 (s : State) : Result := runCode (some .black) 960 s

/-- `BM1024`: black make-up code of value 1024 (41_runlength.md rule R124). -/
def execBm1024 (s : State) : Result := runCode (some .black) 1024 s

/-- `BM1088`: black make-up code of value 1088 (41_runlength.md rule R124). -/
def execBm1088 (s : State) : Result := runCode (some .black) 1088 s

/-- `BM1152`: black make-up code of value 1152 (41_runlength.md rule R124). -/
def execBm1152 (s : State) : Result := runCode (some .black) 1152 s

/-- `BM1216`: black make-up code of value 1216 (41_runlength.md rule R124). -/
def execBm1216 (s : State) : Result := runCode (some .black) 1216 s

/-- `BM1280`: black make-up code of value 1280 (41_runlength.md rule R124). -/
def execBm1280 (s : State) : Result := runCode (some .black) 1280 s

/-- `BM1344`: black make-up code of value 1344 (41_runlength.md rule R124). -/
def execBm1344 (s : State) : Result := runCode (some .black) 1344 s

/-- `BM1408`: black make-up code of value 1408 (41_runlength.md rule R124). -/
def execBm1408 (s : State) : Result := runCode (some .black) 1408 s

/-- `BM1472`: black make-up code of value 1472 (41_runlength.md rule R124). -/
def execBm1472 (s : State) : Result := runCode (some .black) 1472 s

/-- `BM1536`: black make-up code of value 1536 (41_runlength.md rule R124). -/
def execBm1536 (s : State) : Result := runCode (some .black) 1536 s

/-- `BM1600`: black make-up code of value 1600 (41_runlength.md rule R124). -/
def execBm1600 (s : State) : Result := runCode (some .black) 1600 s

/-- `BM1664`: black make-up code of value 1664 (41_runlength.md rule R124). -/
def execBm1664 (s : State) : Result := runCode (some .black) 1664 s

/-- `BM1728`: black make-up code of value 1728 (41_runlength.md rule R124). -/
def execBm1728 (s : State) : Result := runCode (some .black) 1728 s

end Sys2Proof.Machine
end

