-- ==== Sys2Proof/Machine/ExtendedRuns.lean ====
section
/-! DEFINITION. The meanings of the extended make-up codes, which belong to both run-length tables (41_runlength.md rule R125). -/

namespace Sys2Proof.Machine

/-- `XM1792`: extended make-up code of either colour of value 1792 (41_runlength.md rule R125). -/
def execXm1792 (s : State) : Result := runCode none 1792 s

/-- `XM1856`: extended make-up code of either colour of value 1856 (41_runlength.md rule R125). -/
def execXm1856 (s : State) : Result := runCode none 1856 s

/-- `XM1920`: extended make-up code of either colour of value 1920 (41_runlength.md rule R125). -/
def execXm1920 (s : State) : Result := runCode none 1920 s

/-- `XM1984`: extended make-up code of either colour of value 1984 (41_runlength.md rule R125). -/
def execXm1984 (s : State) : Result := runCode none 1984 s

/-- `XM2048`: extended make-up code of either colour of value 2048 (41_runlength.md rule R125). -/
def execXm2048 (s : State) : Result := runCode none 2048 s

/-- `XM2112`: extended make-up code of either colour of value 2112 (41_runlength.md rule R125). -/
def execXm2112 (s : State) : Result := runCode none 2112 s

/-- `XM2176`: extended make-up code of either colour of value 2176 (41_runlength.md rule R125). -/
def execXm2176 (s : State) : Result := runCode none 2176 s

/-- `XM2240`: extended make-up code of either colour of value 2240 (41_runlength.md rule R125). -/
def execXm2240 (s : State) : Result := runCode none 2240 s

/-- `XM2304`: extended make-up code of either colour of value 2304 (41_runlength.md rule R125). -/
def execXm2304 (s : State) : Result := runCode none 2304 s

/-- `XM2368`: extended make-up code of either colour of value 2368 (41_runlength.md rule R125). -/
def execXm2368 (s : State) : Result := runCode none 2368 s

/-- `XM2432`: extended make-up code of either colour of value 2432 (41_runlength.md rule R125). -/
def execXm2432 (s : State) : Result := runCode none 2432 s

/-- `XM2496`: extended make-up code of either colour of value 2496 (41_runlength.md rule R125). -/
def execXm2496 (s : State) : Result := runCode none 2496 s

/-- `XM2560`: extended make-up code of either colour of value 2560 (41_runlength.md rule R125). -/
def execXm2560 (s : State) : Result := runCode none 2560 s

end Sys2Proof.Machine
end

