-- ==== Sys2Proof/Machine/WhiteRuns.lean ====
section
/-! DEFINITION. The meanings of the white run-length codes (41_runlength.md rules R121 and R122). -/

namespace Sys2Proof.Machine

/-- `WT0`: white terminating code of value 0 (41_runlength.md rule R121). -/
def execWt0 (s : State) : Result := runCode (some .white) 0 s

/-- `WT1`: white terminating code of value 1 (41_runlength.md rule R121). -/
def execWt1 (s : State) : Result := runCode (some .white) 1 s

/-- `WT2`: white terminating code of value 2 (41_runlength.md rule R121). -/
def execWt2 (s : State) : Result := runCode (some .white) 2 s

/-- `WT3`: white terminating code of value 3 (41_runlength.md rule R121). -/
def execWt3 (s : State) : Result := runCode (some .white) 3 s

/-- `WT4`: white terminating code of value 4 (41_runlength.md rule R121). -/
def execWt4 (s : State) : Result := runCode (some .white) 4 s

/-- `WT5`: white terminating code of value 5 (41_runlength.md rule R121). -/
def execWt5 (s : State) : Result := runCode (some .white) 5 s

/-- `WT6`: white terminating code of value 6 (41_runlength.md rule R121). -/
def execWt6 (s : State) : Result := runCode (some .white) 6 s

/-- `WT7`: white terminating code of value 7 (41_runlength.md rule R121). -/
def execWt7 (s : State) : Result := runCode (some .white) 7 s

/-- `WT8`: white terminating code of value 8 (41_runlength.md rule R121). -/
def execWt8 (s : State) : Result := runCode (some .white) 8 s

/-- `WT9`: white terminating code of value 9 (41_runlength.md rule R121). -/
def execWt9 (s : State) : Result := runCode (some .white) 9 s

/-- `WT10`: white terminating code of value 10 (41_runlength.md rule R121). -/
def execWt10 (s : State) : Result := runCode (some .white) 10 s

/-- `WT11`: white terminating code of value 11 (41_runlength.md rule R121). -/
def execWt11 (s : State) : Result := runCode (some .white) 11 s

/-- `WT12`: white terminating code of value 12 (41_runlength.md rule R121). -/
def execWt12 (s : State) : Result := runCode (some .white) 12 s

/-- `WT13`: white terminating code of value 13 (41_runlength.md rule R121). -/
def execWt13 (s : State) : Result := runCode (some .white) 13 s

/-- `WT14`: white terminating code of value 14 (41_runlength.md rule R121). -/
def execWt14 (s : State) : Result := runCode (some .white) 14 s

/-- `WT15`: white terminating code of value 15 (41_runlength.md rule R121). -/
def execWt15 (s : State) : Result := runCode (some .white) 15 s

/-- `WT16`: white terminating code of value 16 (41_runlength.md rule R121). -/
def execWt16 (s : State) : Result := runCode (some .white) 16 s

/-- `WT17`: white terminating code of value 17 (41_runlength.md rule R121). -/
def execWt17 (s : State) : Result := runCode (some .white) 17 s

/-- `WT18`: white terminating code of value 18 (41_runlength.md rule R121). -/
def execWt18 (s : State) : Result := runCode (some .white) 18 s

/-- `WT19`: white terminating code of value 19 (41_runlength.md rule R121). -/
def execWt19 (s : State) : Result := runCode (some .white) 19 s

/-- `WT20`: white terminating code of value 20 (41_runlength.md rule R121). -/
def execWt20 (s : State) : Result := runCode (some .white) 20 s

/-- `WT21`: white terminating code of value 21 (41_runlength.md rule R121). -/
def execWt21 (s : State) : Result := runCode (some .white) 21 s

/-- `WT22`: white terminating code of value 22 (41_runlength.md rule R121). -/
def execWt22 (s : State) : Result := runCode (some .white) 22 s

/-- `WT23`: white terminating code of value 23 (41_runlength.md rule R121). -/
def execWt23 (s : State) : Result := runCode (some .white) 23 s

/-- `WT24`: white terminating code of value 24 (41_runlength.md rule R121). -/
def execWt24 (s : State) : Result := runCode (some .white) 24 s

/-- `WT25`: white terminating code of value 25 (41_runlength.md rule R121). -/
def execWt25 (s : State) : Result := runCode (some .white) 25 s

/-- `WT26`: white terminating code of value 26 (41_runlength.md rule R121). -/
def execWt26 (s : State) : Result := runCode (some .white) 26 s

/-- `WT27`: white terminating code of value 27 (41_runlength.md rule R121). -/
def execWt27 (s : State) : Result := runCode (some .white) 27 s

/-- `WT28`: white terminating code of value 28 (41_runlength.md rule R121). -/
def execWt28 (s : State) : Result := runCode (some .white) 28 s

/-- `WT29`: white terminating code of value 29 (41_runlength.md rule R121). -/
def execWt29 (s : State) : Result := runCode (some .white) 29 s

/-- `WT30`: white terminating code of value 30 (41_runlength.md rule R121). -/
def execWt30 (s : State) : Result := runCode (some .white) 30 s

/-- `WT31`: white terminating code of value 31 (41_runlength.md rule R121). -/
def execWt31 (s : State) : Result := runCode (some .white) 31 s

/-- `WT32`: white terminating code of value 32 (41_runlength.md rule R121). -/
def execWt32 (s : State) : Result := runCode (some .white) 32 s

/-- `WT33`: white terminating code of value 33 (41_runlength.md rule R121). -/
def execWt33 (s : State) : Result := runCode (some .white) 33 s

/-- `WT34`: white terminating code of value 34 (41_runlength.md rule R121). -/
def execWt34 (s : State) : Result := runCode (some .white) 34 s

/-- `WT35`: white terminating code of value 35 (41_runlength.md rule R121). -/
def execWt35 (s : State) : Result := runCode (some .white) 35 s

/-- `WT36`: white terminating code of value 36 (41_runlength.md rule R121). -/
def execWt36 (s : State) : Result := runCode (some .white) 36 s

/-- `WT37`: white terminating code of value 37 (41_runlength.md rule R121). -/
def execWt37 (s : State) : Result := runCode (some .white) 37 s

/-- `WT38`: white terminating code of value 38 (41_runlength.md rule R121). -/
def execWt38 (s : State) : Result := runCode (some .white) 38 s

/-- `WT39`: white terminating code of value 39 (41_runlength.md rule R121). -/
def execWt39 (s : State) : Result := runCode (some .white) 39 s

/-- `WT40`: white terminating code of value 40 (41_runlength.md rule R121). -/
def execWt40 (s : State) : Result := runCode (some .white) 40 s

/-- `WT41`: white terminating code of value 41 (41_runlength.md rule R121). -/
def execWt41 (s : State) : Result := runCode (some .white) 41 s

/-- `WT42`: white terminating code of value 42 (41_runlength.md rule R121). -/
def execWt42 (s : State) : Result := runCode (some .white) 42 s

/-- `WT43`: white terminating code of value 43 (41_runlength.md rule R121). -/
def execWt43 (s : State) : Result := runCode (some .white) 43 s

/-- `WT44`: white terminating code of value 44 (41_runlength.md rule R121). -/
def execWt44 (s : State) : Result := runCode (some .white) 44 s

/-- `WT45`: white terminating code of value 45 (41_runlength.md rule R121). -/
def execWt45 (s : State) : Result := runCode (some .white) 45 s

/-- `WT46`: white terminating code of value 46 (41_runlength.md rule R121). -/
def execWt46 (s : State) : Result := runCode (some .white) 46 s

/-- `WT47`: white terminating code of value 47 (41_runlength.md rule R121). -/
def execWt47 (s : State) : Result := runCode (some .white) 47 s

/-- `WT48`: white terminating code of value 48 (41_runlength.md rule R121). -/
def execWt48 (s : State) : Result := runCode (some .white) 48 s

/-- `WT49`: white terminating code of value 49 (41_runlength.md rule R121). -/
def execWt49 (s : State) : Result := runCode (some .white) 49 s

/-- `WT50`: white terminating code of value 50 (41_runlength.md rule R121). -/
def execWt50 (s : State) : Result := runCode (some .white) 50 s

/-- `WT51`: white terminating code of value 51 (41_runlength.md rule R121). -/
def execWt51 (s : State) : Result := runCode (some .white) 51 s

/-- `WT52`: white terminating code of value 52 (41_runlength.md rule R121). -/
def execWt52 (s : State) : Result := runCode (some .white) 52 s

/-- `WT53`: white terminating code of value 53 (41_runlength.md rule R121). -/
def execWt53 (s : State) : Result := runCode (some .white) 53 s

/-- `WT54`: white terminating code of value 54 (41_runlength.md rule R121). -/
def execWt54 (s : State) : Result := runCode (some .white) 54 s

/-- `WT55`: white terminating code of value 55 (41_runlength.md rule R121). -/
def execWt55 (s : State) : Result := runCode (some .white) 55 s

/-- `WT56`: white terminating code of value 56 (41_runlength.md rule R121). -/
def execWt56 (s : State) : Result := runCode (some .white) 56 s

/-- `WT57`: white terminating code of value 57 (41_runlength.md rule R121). -/
def execWt57 (s : State) : Result := runCode (some .white) 57 s

/-- `WT58`: white terminating code of value 58 (41_runlength.md rule R121). -/
def execWt58 (s : State) : Result := runCode (some .white) 58 s

/-- `WT59`: white terminating code of value 59 (41_runlength.md rule R121). -/
def execWt59 (s : State) : Result := runCode (some .white) 59 s

/-- `WT60`: white terminating code of value 60 (41_runlength.md rule R121). -/
def execWt60 (s : State) : Result := runCode (some .white) 60 s

/-- `WT61`: white terminating code of value 61 (41_runlength.md rule R121). -/
def execWt61 (s : State) : Result := runCode (some .white) 61 s

/-- `WT62`: white terminating code of value 62 (41_runlength.md rule R121). -/
def execWt62 (s : State) : Result := runCode (some .white) 62 s

/-- `WT63`: white terminating code of value 63 (41_runlength.md rule R121). -/
def execWt63 (s : State) : Result := runCode (some .white) 63 s

/-- `WM64`: white make-up code of value 64 (41_runlength.md rule R122). -/
def execWm64 (s : State) : Result := runCode (some .white) 64 s

/-- `WM128`: white make-up code of value 128 (41_runlength.md rule R122). -/
def execWm128 (s : State) : Result := runCode (some .white) 128 s

/-- `WM192`: white make-up code of value 192 (41_runlength.md rule R122). -/
def execWm192 (s : State) : Result := runCode (some .white) 192 s

/-- `WM256`: white make-up code of value 256 (41_runlength.md rule R122). -/
def execWm256 (s : State) : Result := runCode (some .white) 256 s

/-- `WM320`: white make-up code of value 320 (41_runlength.md rule R122). -/
def execWm320 (s : State) : Result := runCode (some .white) 320 s

/-- `WM384`: white make-up code of value 384 (41_runlength.md rule R122). -/
def execWm384 (s : State) : Result := runCode (some .white) 384 s

/-- `WM448`: white make-up code of value 448 (41_runlength.md rule R122). -/
def execWm448 (s : State) : Result := runCode (some .white) 448 s

/-- `WM512`: white make-up code of value 512 (41_runlength.md rule R122). -/
def execWm512 (s : State) : Result := runCode (some .white) 512 s

/-- `WM576`: white make-up code of value 576 (41_runlength.md rule R122). -/
def execWm576 (s : State) : Result := runCode (some .white) 576 s

/-- `WM640`: white make-up code of value 640 (41_runlength.md rule R122). -/
def execWm640 (s : State) : Result := runCode (some .white) 640 s

/-- `WM704`: white make-up code of value 704 (41_runlength.md rule R122). -/
def execWm704 (s : State) : Result := runCode (some .white) 704 s

/-- `WM768`: white make-up code of value 768 (41_runlength.md rule R122). -/
def execWm768 (s : State) : Result := runCode (some .white) 768 s

/-- `WM832`: white make-up code of value 832 (41_runlength.md rule R122). -/
def execWm832 (s : State) : Result := runCode (some .white) 832 s

/-- `WM896`: white make-up code of value 896 (41_runlength.md rule R122). -/
def execWm896 (s : State) : Result := runCode (some .white) 896 s

/-- `WM960`: white make-up code of value 960 (41_runlength.md rule R122). -/
def execWm960 (s : State) : Result := runCode (some .white) 960 s

/-- `WM1024`: white make-up code of value 1024 (41_runlength.md rule R122). -/
def execWm1024 (s : State) : Result := runCode (some .white) 1024 s

/-- `WM1088`: white make-up code of value 1088 (41_runlength.md rule R122). -/
def execWm1088 (s : State) : Result := runCode (some .white) 1088 s

/-- `WM1152`: white make-up code of value 1152 (41_runlength.md rule R122). -/
def execWm1152 (s : State) : Result := runCode (some .white) 1152 s

/-- `WM1216`: white make-up code of value 1216 (41_runlength.md rule R122). -/
def execWm1216 (s : State) : Result := runCode (some .white) 1216 s

/-- `WM1280`: white make-up code of value 1280 (41_runlength.md rule R122). -/
def execWm1280 (s : State) : Result := runCode (some .white) 1280 s

/-- `WM1344`: white make-up code of value 1344 (41_runlength.md rule R122). -/
def execWm1344 (s : State) : Result := runCode (some .white) 1344 s

/-- `WM1408`: white make-up code of value 1408 (41_runlength.md rule R122). -/
def execWm1408 (s : State) : Result := runCode (some .white) 1408 s

/-- `WM1472`: white make-up code of value 1472 (41_runlength.md rule R122). -/
def execWm1472 (s : State) : Result := runCode (some .white) 1472 s

/-- `WM1536`: white make-up code of value 1536 (41_runlength.md rule R122). -/
def execWm1536 (s : State) : Result := runCode (some .white) 1536 s

/-- `WM1600`: white make-up code of value 1600 (41_runlength.md rule R122). -/
def execWm1600 (s : State) : Result := runCode (some .white) 1600 s

/-- `WM1664`: white make-up code of value 1664 (41_runlength.md rule R122). -/
def execWm1664 (s : State) : Result := runCode (some .white) 1664 s

/-- `WM1728`: white make-up code of value 1728 (41_runlength.md rule R122). -/
def execWm1728 (s : State) : Result := runCode (some .white) 1728 s

end Sys2Proof.Machine
end

