-- ==== Sys2Proof/Machine/DecodeJob.lean ====
section
/-! DEFINITION. The decode job's step: reading one code word from the input with ReadBit (43_mode_decoder.md rule
R153, 41_runlength.md rule R126), and one iteration of the loop of 43_mode_decoder.md rule R150, which is one
step of the machine (rule R151). -/

namespace Sys2Proof.Machine

/-- The outcome of reading one code word from the input, with the state after the bits read. -/
inductive Reading
  /-- A code word was read. -/
  | word (i : Instr) (s : State)
  /-- Reading raised this error kind. -/
  | raised (e : ErrKind) (s : State)
  deriving DecidableEq, Repr

/-- The context of the next code word: the mode codes, or the table of the run that is being read
(30_encoding.md rule R80, 43_mode_decoder.md rule R158). -/
def State.context (s : State) : Context :=
  match s.phase with
  | .mode => .mode
  | .run1 _ => .run s.color
  | .run2 _ _ => .run (invert s.color)

/-- The loop of ReadMode and ReadCode (43_mode_decoder.md rule R153, 41_runlength.md rules R126 and R129): a bit is read, then a
match is tested, then a dead prefix, which raises `e`. The codebook stands at the bits read so far, and the
number is that of the bits left, so that the loop ends where ReadBit raises EndOfStream. -/
def readLoop (e : ErrKind) (book : Codebook) : Nat → State → Reading
  | 0, s => .raised .endOfStream s
  | n + 1, s =>
    match s.readBit with
    | .error k => .raised k s
    | .ok (b, t) =>
      match book.next b with
      | .word i => .word i t
      | .dead => .raised e t
      | .more zero one => readLoop e (.more zero one) n t

/-- Reads one code word at `pos` in the state's context. -/
def readWord (s : State) : Reading :=
  readLoop (deadKind s.context) (codebook s.context) s.bitsLeft s

/-- The code words of one step: a mode code, and after `H` its run codes (43_mode_decoder.md rule R151). A job
that has ended stops the loop, an open Horizontal pair goes on with its next run code, and a finished mode
completes the line when `a0 > W` (rule R150). -/
def decodeLoop : Nat → State → Result
  | 0, _ => .fault .noProgress
  | n + 1, s =>
    match readWord s with
    | .raised e t => raiseError e t
    | .word i t =>
      match exec i t with
      | .next u =>
        if u.status ≠ .busy .decode then .next u
        else if u.phase ≠ .mode then decodeLoop n u
        else if u.width < u.a0 then lineComplete u
        else .next u
      | .fault f => .fault f
      | .refused r => .refused r

/-- One step of a decode job (43_mode_decoder.md rules R150 and R151). Each code word takes a bit, so the bits
left bound the code words of the step. -/
def decodeStep (s : State) : Result := decodeLoop (s.bitsLeft + 1) s

end Sys2Proof.Machine
end

