-- ==== Sys2Proof/Machine/EncodeJob.lean ====
section
/-! DEFINITION. The encode job (44_encoder.md): a step makes one mode decision and emits its code words, with the
load of a source line before its first decision and the end of the line after its last, and the last step
terminates the stream. -/

namespace Sys2Proof.Machine

/-- `stride = SKIP_LEAD + W + SKIP_TAIL` (44_encoder.md rule R181). -/
def State.stride (s : State) : Nat := s.cfgSkipLead.toNat + s.width + s.cfgSkipTail.toNat

/-- `Hgt = (8·IN_LEN) div stride` (44_encoder.md rule R181). -/
def State.height (s : State) : Nat := 8 * s.inLen / s.stride

/-- Source bit `j`, always most significant first (20_memory.md rule R71). -/
def State.sourceBit (s : State) (j : Nat) : Bool :=
  (Memory.read s.inMem (j / 8)).getLsbD (7 - j % 8)

/-- The first source bit of the pixels of line `y`: `y·stride + SKIP_LEAD` (44_encoder.md rule R182). -/
def State.lineStart (s : State) : Nat := s.y * s.stride + s.cfgSkipLead.toNat

/-- The source line `y` as a line buffer: cell 0 White, then `W` pixels (44_encoder.md rule R182). -/
def State.sourceLine (s : State) : List Colour :=
  .white :: (List.range s.width).map fun x => bitColour s.params.blackBit (s.sourceBit (s.lineStart + x))

/-- LoadLine(y) (44_encoder.md rule R182). -/
def loadLine (s : State) : State :=
  { s.setCur s.sourceLine with rpos := s.lineStart + s.width + s.cfgSkipTail.toNat }

/-- The Vertical code of the offset `a1 − b1`, where there is one (44_encoder.md rule R185). -/
def verticalCode (a1 b1 : Nat) : Option Instr :=
  if a1 = b1 then some .v0
  else if a1 = b1 + 1 then some .vr1
  else if a1 = b1 + 2 then some .vr2
  else if a1 = b1 + 3 then some .vr3
  else if a1 + 1 = b1 then some .vl1
  else if a1 + 2 = b1 then some .vl2
  else if a1 + 3 = b1 then some .vl3
  else none

/-- EmitPass() (44_encoder.md rule R184). -/
def emitPass (s : State) : Option State :=
  (s.writeBits (encode .p)).map fun t => { t with a0 := s.b2 }

/-- EmitVertical() with the code word of the offset (44_encoder.md rule R185). -/
def emitVertical (code : Instr) (s : State) : Option State :=
  (s.writeBits (encode code)).map fun t => { t with a0 := s.a1, color := invert s.color }

/-- The bits EmitHorizontal() writes: `001`, the first run in `color`, the second in its opposite
(44_encoder.md rule R186). -/
def State.horizontalBits (s : State) : List Bool :=
  encode .h ++ runBits s.color (s.a1 - s.runStart) ++ runBits (invert s.color) (s.a2 - s.a1)

/-- EmitHorizontal() (44_encoder.md rule R186). -/
def emitHorizontal (s : State) : Option State :=
  (s.writeBits s.horizontalBits).map fun t => { t with a0 := s.a2 }

/-- CodeStep(): Pass when `b2 < a1`, else Vertical when `|a1 − b1| ≤ 3`, else Horizontal (44_encoder.md rule R183). -/
def codeStep (s : State) : Option State :=
  if s.b2 < s.a1 then emitPass s
  else
    match verticalCode s.a1 s.b1 with
    | some code => emitVertical code s
    | none => emitHorizontal s

/-- EndLine() (44_encoder.md rule R188), with the `a0 <- 0; color <- White` and the next `y` of the loop of rule
R180 (log 12). -/
def endLine (s : State) : State :=
  { s with sel := !s.sel, lines := s.lines + 1, y := s.y + 1, a0 := 0, color := .white }

/-- Terminate(): EOFB, DONE, and `STATE <- DONE` (44_encoder.md rule R189, 60_exceptions.md rule R200). -/
def terminate (s : State) : Result :=
  orOverflow ((s.writeBits (encode .eofb)).bind State.flush) fun t => .next { t with status := .done }

/-- The source line is loaded before the first decision of a line, at `a0 = 0` (44_encoder.md rule R180). -/
def startLine (s : State) : State := if s.a0 = 0 then loadLine s else s

/-- One step of an encode job: a mode decision (92_eei_decisions.md D1), or the termination after the last line
(44_encoder.md rule R180). -/
def encodeStep (s : State) : Result :=
  if s.y < s.height then
    orOverflow (codeStep (startLine s)) fun t => .next (if t.width < t.a0 then endLine t else t)
  else terminate s

end Sys2Proof.Machine
end

