-- ==== Sys2Proof/Machine/HostPort.lean ====
section
/-! DEFINITION. The host's accesses (10_state.md section 2, 20_memory.md rules R66 to R69, 60_exceptions.md rule
R212, 70_reset_and_hazards.md rule R220): register reads and writes, START, filling `IN`, reading `OUT` and
`CA`, and reset. -/

namespace Sys2Proof.Machine

/-- Whether a job is running (10_state.md rule R34). -/
def State.isBusy (s : State) : Bool :=
  match s.status with
  | .busy _ => true
  | _ => false

/-- Whether the last job's results may be read: `STATE` is DONE or ERROR (20_memory.md rule R66). -/
def State.hasResult (s : State) : Bool :=
  match s.status with
  | .done => true
  | .error _ => true
  | _ => false

/-- The state an accepted START creates (10_state.md rules R26 and R28, 40_bitio.md rule R101, 42_store.md rule
R141): `CA` is emptied for a decode job with the colour array. -/
def beginJob (j : Job) (s : State) : State :=
  { s with
    status := .busy j
    lines := 0
    outLen := 0
    order := s.cfgOrder
    buf0 := newRow s.width
    buf1 := newRow s.width
    sel := false
    a0 := 0
    color := .white
    phase := .mode
    pos := 0
    rpos := 0
    y := 0
    acc := []
    store := []
    ca := if j = .decode ∧ s.colourStore then [] else s.ca }

/-- START_DECODE and START_ENCODE, with the cases in which START is refused (10_state.md rule R26,
60_exceptions.md rule R212, 92_eei_decisions.md D13 and D20). -/
def startJob (j : Job) (s : State) : Result :=
  if s.isBusy then .refused .startWhileBusy
  else if s.width = 0 ∨ s.params.maxWidth < s.width then .refused .illegalWidth
  else if s.params.maxInBytes < s.inLen then .refused .inputTooLong
  else if j = .encode ∧ s.cfgOrder then .refused .encodeLsbFirst
  else .next (beginJob j s)

/-- A configuration write: refused while BUSY (20_memory.md rule R66). -/
def configWrite (s t : State) : Result :=
  if s.isBusy then .refused .hostWriteWhileBusy else .next t

/-- A write of a host-visible register (10_state.md section 2). `CTRL` takes a command from bits 1..0. A write of
a read-only register changes nothing (log 14). -/
def hostWriteReg (no : Nat) (v : Reg) (s : State) : Result :=
  match no with
  | 0 => configWrite s { s with cfgWidth := v }
  | 1 => configWrite s { s with cfgMode := v &&& 3 }
  | 2 => configWrite s { s with cfgSkipLead := v }
  | 3 => configWrite s { s with cfgSkipTail := v }
  | 4 => configWrite s { s with cfgInLen := v }
  | 5 =>
    match v.toNat % 4 with
    | 0 => .next s
    | 1 => startJob .decode s
    | 2 => startJob .encode s
    | _ => .refused .reservedCommand
  | 6 => .next s
  | 7 => .next s
  | 8 => .next s
  | _ => .fault .noSuchRegister

/-- A read of a value the host may see in this state, else a read that breaks a duty (20_memory.md rule R66; log 13). -/
def readWhen (ok : Bool) (v : Reg) (s : State) : Result :=
  if ok then .next { s with hostData := .word v } else .refused .hostReadTooEarly

/-- A read of a counter of the last job's results, refused but in DONE and ERROR (20_memory.md rule R66, duty 3;
log 13): its value where it fits the register, else a free value (log 8). -/
def readCount (n : Nat) (s : State) : Result :=
  if !s.hasResult then .refused .hostReadTooEarly
  else if n < 2 ^ 32 then .next { s with hostData := .word (BitVec.ofNat 32 n) }
  else .next { s with hostData := .word (Config.freeCount s.fresh), fresh := s.fresh + 1 }

/-- A read of a host-visible register (10_state.md section 2). -/
def hostReadReg (no : Nat) (s : State) : Result :=
  match no with
  | 0 => readWhen (!s.isBusy) s.cfgWidth s
  | 1 => readWhen (!s.isBusy) s.cfgMode s
  | 2 => readWhen (!s.isBusy) s.cfgSkipLead s
  | 3 => readWhen (!s.isBusy) s.cfgSkipTail s
  | 4 => readWhen (!s.isBusy) s.cfgInLen s
  | 5 => readWhen true 0 s
  | 6 => readWhen true (statusWord s.status) s
  | 7 => readCount s.lines s
  | 8 => readCount s.outLen s
  | _ => .fault .noSuchRegister

/-- A write of a byte of `IN`: refused while BUSY (20_memory.md rules R66 and R69). -/
def hostWriteIn (addr : Nat) (v : Byte) (s : State) : Result :=
  if s.isBusy then .refused .hostWriteWhileBusy
  else if addr < s.params.maxInBytes then .next { s with inMem := Memory.write s.inMem addr v }
  else .fault .inAddress

/-- A read of a byte of `OUT` (20_memory.md rules R66 and R68): a free value at and beyond `OUT_LEN`
(93_implementation_defined.md U11). -/
def hostReadOut (addr : Nat) (s : State) : Result :=
  if !s.hasResult then .refused .hostReadTooEarly
  else if s.params.maxOutBytes ≤ addr then .fault .outAddress
  else if addr < s.outLen then .next { s with hostData := .byte (Memory.read s.outMem addr) }
  else .next { s with hostData := .byte (Config.freeByte s.fresh), fresh := s.fresh + 1 }

/-- A read of a cell of `CA` (20_memory.md rules R64 and R66): a free value beyond the cells that hold a pixel
(93_implementation_defined.md U10). -/
def hostReadCa (idx : Nat) (s : State) : Result :=
  if !s.hasResult then .refused .hostReadTooEarly
  else if s.params.maxOutBytes ≤ idx then .fault .caAddress
  else
    match s.ca[idx]? with
    | some c => .next { s with hostData := .colour c }
    | none => .next { s with hostData := .colour (Config.freeColour s.fresh), fresh := s.fresh + 1 }

/-- Reset (70_reset_and_hazards.md rule R220): every piece of state at its reset value. `IN` is host memory and
not reset (10_state.md rule R44), the parameters are fixed, and the host's side is the host's (log 23). -/
def hostReset (s : State) : State :=
  { State.reset with
    params := s.params
    inMem := s.inMem
    hostOps := s.hostOps
    hostData := s.hostData
    fresh := s.fresh }

/-- One access of the host, but for `wait`, which is the core's step and is taken by `step`. -/
def hostStep (op : HostOp) (s : State) : Result :=
  match op with
  | .wait => .next s
  | .writeReg no v => hostWriteReg no v s
  | .readReg no => hostReadReg no s
  | .writeIn addr v => hostWriteIn addr v s
  | .writeOut _ _ => .refused .hostWriteOut
  | .readOut addr => hostReadOut addr s
  | .readCa idx => hostReadCa idx s
  | .reset => .next (hostReset s)

end Sys2Proof.Machine
end

