-- ==== Sys2Proof/Machine/Load.lean ====
section
/-! DEFINITION. The core's step as a whole, and how a row of the opcode table is placed so that the next step
reads it (log 17). -/

namespace Sys2Proof.Machine

/-- A step of the core: a step of the running job; without one the core waits (70_reset_and_hazards.md rule R221). -/
def coreStep (s : State) : Result :=
  match s.status with
  | .busy .decode => decodeStep s
  | .busy .encode => encodeStep s
  | .idle => .next s
  | .done => .next s
  | .error _ => .next s

/-- The bytes of a bit string, most significant bit first, the last one padded with zeros (20_memory.md rule
R60 with `ORDER = 0`). The number is that of the bytes. -/
def packBytes (bits : List Bool) : Nat → List Byte
  | 0 => []
  | n + 1 => packByte ((bits ++ List.replicate 8 false).take 8) :: packBytes (bits.drop 8) n

/-- The bytes written from an address on. -/
def writeAll (m : List Host.Cell) (a : Nat) : List Byte → List Host.Cell
  | [] => m
  | v :: vs => writeAll (Memory.write m a v) (a + 1) vs

/-- A state whose running decode job has the given bits as its whole input, in at least as many bytes as the
longest code word takes (EOFB, three bytes), and reads them in the given context next. The width stays where
it is legal and is 8 where it is 0. -/
def placeBits (ctx : Context) (bits : List Bool) (s : State) : State :=
  let n := max 3 ((bits.length + 7) / 8)
  let t :=
    beginJob .decode
      { s with
        cfgWidth := if s.cfgWidth = 0 then 8 else s.cfgWidth
        cfgMode := s.cfgMode &&& 2
        cfgInLen := BitVec.ofNat 32 n
        inMem := writeAll s.inMem 0 (packBytes bits n)
        hostOps := [] }
  match ctx with
  | .mode => t
  | .run .white => { t with phase := .run1 0 }
  | .run .black => { t with phase := .run2 0 0 }

end Sys2Proof.Machine
end

