-- ==== Sys2Proof/Machine/Step.lean ====
section
/-! DEFINITION. The step of the machine: the host's next pending access, or a step of the core (log 1); and the
placement of a row of the opcode table as the next code word (log 17). -/

namespace Sys2Proof.Machine

/-- One step. With no access pending the core moves; a pending access is taken alone; `wait` lets the core move. -/
def step (s : State) : Host.Outcome State Fault Refusal :=
  match s.hostOps with
  | [] => coreStep s
  | .wait :: ops => coreStep { s with hostOps := ops }
  | op :: ops => hostStep op { s with hostOps := ops }

/-- The state with the row of the opcode table whose `nbits` bits are the number `w` as the next code word that
`step` reads. -/
def State.withFetchWord (s : State) (nbits w : Nat) : State :=
  placeBits (tableContext (bin w nbits)) (bin w nbits) s

end Sys2Proof.Machine
end

