-- ==== Sys2Proof/Safety.lean ====
section
/-! DEFINITION. The words that claims about the machine use: the invariant of the states between two steps, what
a step adds around the meaning of a code word, and the state an ended decode job leaves. -/

namespace Sys2Proof.Machine

/-! ## The invariant between steps -/

/-- A line buffer of a running job: cells `0..W`, cell 0 White (10_state.md rules R27 and R42). -/
def LineOk (w : Nat) (l : List Colour) : Prop := l.length = w + 1 ∧ cell l 0 = .white

/-- What holds of a running job between steps. -/
structure JobInv (s : State) : Prop where
  /-- A legal width (10_state.md rule R21). -/
  width : 1 ≤ s.width ∧ s.width ≤ s.params.maxWidth
  /-- A legal input length (10_state.md rule R25). -/
  inLen : s.inLen ≤ s.params.maxInBytes
  /-- The latched bit order is the configured one (40_bitio.md rule R101). -/
  order : s.order = s.cfgOrder
  /-- Both line buffers (10_state.md rules R27 and R42). -/
  lines0 : LineOk s.width s.buf0
  lines1 : LineOk s.width s.buf1
  /-- The line is not complete (43_mode_decoder.md rule R170, 44_encoder.md rule R180). -/
  a0 : s.a0 ≤ s.width
  /-- The colour at the start of a line is White (10_state.md rules R30 and R42). -/
  color : s.a0 = 0 → s.color = .white
  /-- The cursor is within the input (10_state.md rule R24). -/
  pos : s.pos ≤ 8 * s.inLen

/-- The invariant of every state between steps. -/
structure Inv (s : State) : Prop where
  /-- The byte memories are in canonical form. -/
  inWf : Memory.wf s.inMem
  outWf : Memory.wf s.outMem
  /-- The unlisted bits of `CFG_MODE` read 0 (10_state.md section 2). -/
  modeBits : s.cfgMode &&& 3 = s.cfgMode
  /-- The byte in progress has at most 7 bits (10_state.md rule R39). -/
  acc : s.acc.length < 8
  /-- The outputs are within their capacity (20_memory.md rules R62 and R64). -/
  out : s.outLen ≤ s.params.maxOutBytes
  caFits : s.ca.length ≤ s.params.maxOutBytes
  /-- No transient state outlives a step (10_state.md rule R37). -/
  phase : s.phase = .mode
  /-- A running job. -/
  job : s.isBusy = true → JobInv s

/-! ## The end of a decode job -/

/-- A running decode job whose lines go to the packed bitmap (42_store.md rule R144). -/
abbrev State.packing (s : State) : Prop := s.status = .busy .decode ∧ s.colourStore = false

/-- Whether FLUSH at the end of the job writes a byte: at the address `OUT_LEN` (40_bitio.md rule R108). -/
abbrev State.flushes (s : State) : Prop := s.packing ∧ s.acc ≠ []

/-- The end of the job does not overrun `OUT`. -/
abbrev State.flushFits (s : State) : Prop := s.flushes → s.outLen < s.params.maxOutBytes

/-- The byte FLUSH completes: the bits in progress and zero bits (40_bitio.md rules R105 and R108). -/
def State.lastByte (s : State) : Byte := packByte (s.acc ++ List.replicate (8 - s.acc.length) false)

/-- The state with a packed store finalised (42_store.md rule R146): the byte in progress, if there is one, is
completed at the address `OUT_LEN`. -/
def State.flushed (s : State) : State :=
  if s.flushes then
    { s with acc := [], outMem := Memory.write s.outMem s.outLen s.lastByte, outLen := s.outLen + 1 }
  else s

/-! ## The bits of the output -/

/-- The eight bits of a byte, the most significant first (40_bitio.md rule R105). -/
def byteBits (v : Byte) : List Bool := (List.range 8).map fun j => v.getLsbD (7 - j)

/-- The bits the packer has taken: those of `OUT[0 .. OUT_LEN − 1]`, then those of the byte in progress. -/
def State.outBits (s : State) : List Bool :=
  ((List.range s.outLen).flatMap fun a => byteBits (Memory.read s.outMem a)) ++ s.acc

/-! ## What a step adds around a code word -/

/-- What a decode step does after the meaning of a code word (43_mode_decoder.md rules R150 and R151): an ended
job stops, an open Horizontal pair goes on, a finished mode completes the line when `a0 > W`. -/
def afterCode : Result → Result
  | .next u =>
    if u.status ≠ .busy .decode then .next u
    else if u.phase ≠ .mode then decodeStep u
    else if u.width < u.a0 then lineComplete u
    else .next u
  | .fault f => .fault f
  | .refused r => .refused r

/-- The state after the bits in front of `rest` were read. -/
def State.readTo (s : State) (rest : List Bool) : State :=
  { s with pos := s.pos + (s.stream.length - rest.length) }

/-! ## Jobs as a whole -/

/-- The scanlines of the store, one after the other. -/
def State.pixels (s : State) : List Colour := s.store.flatten

/-- What the output of a running decode job is: the scanlines received, in the variant `CFG_MODE.STORE` selects
(42_store.md rules R143 to R145). -/
structure DecodeOutput (s : State) : Prop where
  /-- `LINES` counts the scanlines received (10_state.md rule R35), and each has `W` pixels. -/
  lines : s.lines = s.store.length
  rows : ∀ row ∈ s.store, row.length = s.width
  /-- The packed bitmap is the pixels, one bit each, without padding (42_store.md rule R144). -/
  packed : s.colourStore = false → s.outBits = s.pixels.map (colourBit s.params.blackBit)
  /-- The colour array is the pixels (42_store.md rule R145), and `OUT_LEN` stays 0 (10_state.md rule R36). -/
  array : s.colourStore = true → s.ca = s.pixels ∧ s.outLen = 0 ∧ s.acc = []

/-- The bits one mode decision of the encoder writes (44_encoder.md rules R183 to R186). -/
def State.decisionBits (s : State) : List Bool :=
  if s.b2 < s.a1 then encode .p
  else
    match verticalCode s.a1 s.b1 with
    | some code => encode code
    | none => s.horizontalBits

/-- The scanlines an encode job codes (44_encoder.md rules R181 and R182). -/
def State.sourceLines (s : State) : List (List Colour) :=
  (List.range s.height).map fun k => scanline s.width (State.sourceLine { s with y := k })

/-- The job as the core runs it: `n` steps from a state. -/
def runSteps (n : Nat) (s : State) : Result := Host.Core.run Sys2Proof.core n s

/-! ## Two states that a decode job does not tell apart -/

/-- The states differ at most in cells of the current line that the line has not reached (10_state.md rule R43):
those at and right of `a0`. -/
def SameButStale (s t : State) : Prop :=
  (∃ l, t = s.setCur l) ∧ t.cur.length = s.cur.length ∧ ∀ p, p < max s.a0 1 → cell t.cur p = cell s.cur p

/-- A state without the variant of its store and without what that variant writes (42_store.md rule R140). -/
def State.withoutVariant (s : State) : State :=
  { s with cfgMode := s.cfgMode &&& 1, acc := [], outMem := [], outLen := 0, ca := [] }

/-- The seven Vertical codes with their offsets and bit strings (30_encoding.md rules R81 and R83). -/
def verticalCodes : List (Instr × Int × List Bool) := [
  (.v0, 0, [true]),
  (.vr1, 1, [false, true, true]),
  (.vr2, 2, [false, false, false, false, true, true]),
  (.vr3, 3, [false, false, false, false, false, true, true]),
  (.vl1, -1, [false, true, false]),
  (.vl2, -2, [false, false, false, false, true, false]),
  (.vl3, -3, [false, false, false, false, false, true, false])]

/-- EOL, the 12-bit pattern of each half of EOFB (30_encoding.md rule R85). -/
def eol : List Bool := List.replicate 11 false ++ [true]

end Sys2Proof.Machine
end

