-- ==== Sys2Proof/Certificates/Slice0/Obligations.lean ====
section
/-! DEFINITION. The statements for the provers. Each docstring names the rules of spec/ that it formalises. -/

open Sys2Proof Sys2Proof.Machine

/-! ## Encoding -/

/-- 30_encoding.md rules R80, R81 and R88, 41_runlength.md rules R120 to R125: in every context of its codebook a
code word decodes to itself, whatever bits follow it, and exactly its own bits are consumed. -/
def Obligations.DecodeOfEncodeIsTheCodeWord : Prop :=
  ∀ (ctx : Context) (i : Instr) (rest : List Bool),
    i.wellFormedIn ctx = true → decode ctx (encode i ++ rest) = .word i rest

/-- 30_encoding.md rule R88: nothing but a code word of the context decodes to a code word, and the bits in front
of the rest are its own. -/
def Obligations.OnlyCodeWordsDecode : Prop :=
  ∀ (ctx : Context) (bits : List Bool) (i : Instr) (rest : List Bool),
    decode ctx bits = .word i rest → i.wellFormedIn ctx = true ∧ bits = encode i ++ rest

/-- 30_encoding.md rule R88: every codebook is prefix-free, so the first match is the code word; the longest code
words have 12 bits (white), 13 bits (black) and 24 bits (mode). -/
def Obligations.CodebooksArePrefixFree : Prop :=
  (∀ (ctx : Context) (i j : Instr), i.wellFormedIn ctx = true → j.wellFormedIn ctx = true →
      encode i <+: encode j → i = j) ∧
    (∀ (ctx : Context) (i : Instr) (rest : List Bool), i.wellFormedIn ctx = true →
      decode ctx (encode i ++ rest) = .word i rest) ∧
    (∀ i : Instr, i.wellFormedIn (.run .white) = true → (encode i).length ≤ 12) ∧
    (∀ i : Instr, i.wellFormedIn (.run .black) = true → (encode i).length ≤ 13) ∧
    (∀ i : Instr, i.wellFormedIn .mode = true → (encode i).length ≤ 24) ∧
    (encode .xm2560).length = 12 ∧ (encode .bm1728).length = 13 ∧ (encode .eofb).length = 24

/-- 30_encoding.md rule R86: the three kinds of code of each table, their run lengths, and the shortest and longest
code word of each group; the code words of a run context are the rows of its table. -/
def Obligations.RunTablesHoldTheirCodes : Prop :=
  whiteTerminating.map (·.value) = List.range 64 ∧ blackTerminating.map (·.value) = List.range 64 ∧
    whiteMakeUp.map (·.value) = (List.range 27).map (fun k => 64 * (k + 1)) ∧
    blackMakeUp.map (·.value) = (List.range 27).map (fun k => 64 * (k + 1)) ∧
    extendedMakeUp.map (·.value) = (List.range 13).map (fun k => 64 * (k + 28)) ∧
    runRows .white = whiteTerminating ++ whiteMakeUp ++ extendedMakeUp ∧
    runRows .black = blackTerminating ++ blackMakeUp ++ extendedMakeUp ∧
    (∀ c, (runRows c).length = 104) ∧
    (∀ (c : Colour) (i : Instr), i.wellFormedIn (.run c) = true ↔ ∃ r ∈ runRows c, r.instr = i) ∧
    (∀ g ∈ [(whiteTerminating, 4, 8), (whiteMakeUp, 5, 9), (blackTerminating, 2, 12), (blackMakeUp, 10, 13),
        (extendedMakeUp, 11, 12)],
      (g.1.all fun r => g.2.1 ≤ r.len && r.len ≤ g.2.2) = true ∧
        (g.1.any fun r => r.len == g.2.1) = true ∧ (g.1.any fun r => r.len == g.2.2) = true)

/-- 30_encoding.md rule R81 and 41_runlength.md rules R121 to R125: code words of every family, written out bit by
bit from the spec's tables, decode to the instructions they stand for. -/
def Obligations.WrittenOutWordsDecode : Prop :=
  decode .mode [false, false, false, true] = .word .p [] ∧
    decode .mode [false, false, true] = .word .h [] ∧
    decode .mode [false, false, false, false, false, true, true] = .word .vr3 [] ∧
    decode .mode [false, false, false, false, false, true, false] = .word .vl3 [] ∧
    decode .mode [false, false, false, false, false, false, true] = .word .ext2d [] ∧
    decode .mode [false, false, false, false, false, false, false, false, true] = .word .ext1d [] ∧
    decode .mode (eol ++ eol) = .word .eofb [] ∧
    decode (.run .white) [true, false, false, false] = .word .wt3 [] ∧
    decode (.run .white) [false, true, false, false, true, true, false, true, true] = .word .wm1728 [] ∧
    decode (.run .black) [false, false, true, true] = .word .bt5 [] ∧
    decode (.run .black) [false, false, false, false, false, false, true, true, true, true] = .word .bm64 [] ∧
    decode (.run .black) [false, false, false, false, false, false, false, true, false, false, false] =
      .word .xm1792 []

/-- 30_encoding.md rule R89: the mode codebook covers every bit string but those that begin with one of four
prefixes, or with EOL followed by 12 bits that are not EOL; each of these is InvalidEOFB. The Extension
prefixes are code words, whose meaning raises ExtensionNotSupported. -/
def Obligations.ModeCodebookCoverage : Prop :=
  (∀ p ∈ [List.replicate 7 false ++ [true], List.replicate 9 false ++ [true],
        List.replicate 10 false ++ [true], List.replicate 12 false],
      ∀ rest, decode .mode (p ++ rest) = .dead .invalidEofb rest) ∧
    (∀ x rest : List Bool, x.length = 12 → x ≠ eol →
      ∃ rest', decode .mode (eol ++ x ++ rest) = .dead .invalidEofb rest') ∧
    (∀ bits : List Bool, 24 ≤ bits.length →
      (∃ i rest, decode .mode bits = .word i rest) ∨
        (∃ p ∈ [List.replicate 7 false ++ [true], List.replicate 9 false ++ [true],
            List.replicate 10 false ++ [true], List.replicate 12 false], p <+: bits) ∨
        (∃ x : List Bool, x.length = 12 ∧ x ≠ eol ∧ (eol ++ x) <+: bits)) ∧
    (∀ rest, decode .mode (List.replicate 6 false ++ [true] ++ rest) = .word .ext2d rest) ∧
    (∀ rest, decode .mode (List.replicate 8 false ++ [true] ++ rest) = .word .ext1d rest) ∧
    (∀ s, exec .ext2d s = raiseError .extensionNotSupported s) ∧
    (∀ s, exec .ext1d s = raiseError .extensionNotSupported s)

/-- 30_encoding.md rule R90 and 41_runlength.md rule R128: in each run table the dead bit strings are exactly those
that begin with eight zeros, and UnknownCode is raised at the eighth. -/
def Obligations.UnknownCodeIsEightZeros : Prop :=
  ∀ (c : Colour) (bits : List Bool) (e : ErrKind) (rest : List Bool),
    decode (.run c) bits = .dead e rest ↔
      e = .unknownCode ∧ bits = List.replicate 8 false ++ rest

/-! ## The meanings of the mode codes -/

/-- 43_mode_decoder.md rule R157: Pass fills from `a0` to `b2` with `color`, sets `a0 = b2`, leaves `color` and
everything else, and never raises; `a0` strictly increases. -/
def Obligations.PassFillsToB2 : Prop :=
  ∀ s : State,
    encode .p = [false, false, false, true] ∧
      exec .p s = .next { s.setCur (fill s.cur s.a0 s.b2 s.color) with a0 := s.b2 } ∧
      s.b2 ≤ s.width + 1 ∧ (s.a0 ≤ s.width → s.a0 < s.b2)

/-- 43_mode_decoder.md rules R159 to R166 and 30_encoding.md rule R83: each Vertical code has its offset from its
code word alone; where `a0 < b1 + k ≤ W + 1` it fills to `a1 = b1 + k`, inverts `color` and sets `a0 = a1`,
and else it raises OutOfBounds. -/
def Obligations.VerticalMovesToA1 : Prop :=
  ∀ code ∈ verticalCodes, ∀ s : State,
    encode code.1 = code.2.2 ∧
      (∀ a1 : Nat, (a1 : Int) = (s.b1 : Int) + code.2.1 → s.a0 < a1 → a1 ≤ s.width + 1 →
        exec code.1 s =
          .next { s.setCur (fill s.cur s.a0 a1 s.color) with color := invert s.color, a0 := a1 }) ∧
      ((s.width : Int) + 1 < (s.b1 : Int) + code.2.1 ∨ (s.b1 : Int) + code.2.1 ≤ (s.a0 : Int) →
        exec code.1 s = raiseError .outOfBounds s)

/-- 43_mode_decoder.md rule R158, 10_state.md rule R37: `H` opens a pair of runs with an empty run accumulator, and
writes nothing else. -/
def Obligations.HorizontalOpensAPair : Prop :=
  ∀ s : State, exec .h s = .next { s with phase := .run1 0 }

/-- 41_runlength.md rules R120 to R127, first run: in the first run of a pair every code word of `T_color` adds its
value to `tot`; a value of 64 or more goes on with the run, a smaller one ends it. -/
def Obligations.RunCodesAddToTheFirstRun : Prop :=
  ∀ (s : State) (tot : Nat), s.phase = .run1 tot → ∀ r ∈ runRows s.color,
    exec r.instr s =
      .next { s with phase := if r.value < 64 then .run2 (tot + r.value) 0 else .run1 (tot + r.value) }

/-- 41_runlength.md rules R120 to R127, second run: in the second run of a pair every make-up code of the opposite
colour's table adds its value to `tot` and goes on with the run. -/
def Obligations.MakeUpCodesAddToTheSecondRun : Prop :=
  ∀ (s : State) (r1 tot : Nat), s.phase = .run2 r1 tot → ∀ r ∈ runRows (invert s.color), 64 ≤ r.value →
    exec r.instr s = .next { s with phase := .run2 r1 (tot + r.value) }

/-- 43_mode_decoder.md rules R155 and R158: a terminating code of the second run closes the pair. Where
`max(a0,1) + r1 + r2 ≤ W + 1` the two runs are filled, `a0` is their end, and `color` stays; else
OutOfBounds is raised. -/
def Obligations.TerminatingCodeClosesThePair : Prop :=
  ∀ (s : State) (r1 tot : Nat), s.phase = .run2 r1 tot → ∀ r ∈ runRows (invert s.color), r.value < 64 →
    (max s.a0 1 + r1 + (tot + r.value) ≤ s.width + 1 →
      exec r.instr s =
        .next
          { s.setCur
              (fill (fill s.cur (max s.a0 1) (max s.a0 1 + r1) s.color) (max s.a0 1 + r1)
                (max s.a0 1 + r1 + (tot + r.value)) (invert s.color)) with
            a0 := max s.a0 1 + r1 + (tot + r.value), phase := .mode }) ∧
    (s.width + 1 < max s.a0 1 + r1 + (tot + r.value) → exec r.instr s = raiseError .outOfBounds s)

/-- 43_mode_decoder.md rules R167 and R168: an Extension always raises ExtensionNotSupported; the job ends with
that error, and the packed store is flushed. That `pos`, `a0`, `color` and the current line stay as they stood,
though rule R201 calls them discarded, is the model's choice (log 21). -/
def Obligations.ExtensionEndsTheJob : Prop :=
  ∀ i ∈ [Instr.ext2d, Instr.ext1d], ∀ s : State, s.acc.length < 8 → s.flushFits →
    exec i s = .next { s.flushed with phase := .mode, status := .error .extensionNotSupported }

/-- 43_mode_decoder.md rules R169 and R172, 60_exceptions.md rule R200: EOFB ends the job with DONE; the store is
finalised, and no line is pushed, whatever `a0`. That `pos`, `a0`, `color` and the partial line stay as they
stood, though they are discarded, is the model's choice (log 21). -/
def Obligations.EofbEndsTheJob : Prop :=
  ∀ s : State, s.acc.length < 8 → s.flushFits →
    exec .eofb s = .next { s.flushed with phase := .mode, status := .done } ∧
      s.flushed.store = s.store ∧ s.flushed.lines = s.lines ∧ s.flushed.ca = s.ca

/-- 60_exceptions.md rules R201 and R208: `raise E` discards the transient state, flushes a packed decode store
(at the address `OUT_LEN`), writes `ERR` and `STATE`, and keeps the lines pushed and `LINES`. That `pos`, `a0`,
`color` and the current line stay as they stood, though rule R201 calls them discarded, is the model's choice
(log 21). -/
def Obligations.RaiseEndsTheJob : Prop :=
  ∀ (e : ErrKind) (s : State), s.acc.length < 8 → s.flushFits →
    raiseError e s = .next { s.flushed with phase := .mode, status := .error e } ∧
      s.flushed.store = s.store ∧ s.flushed.lines = s.lines ∧ s.flushed.ca = s.ca ∧
      statusState (.error e) = 3 ∧ statusErr (.error e) = errCode e

/-- 20_memory.md rule R62, 60_exceptions.md rule R212: where the last byte of a packed store would not fit `OUT`,
the end of the job is refused and no error code is set. -/
def Obligations.OverflowAtTheEndIsRefused : Prop :=
  ∀ s : State, s.acc.length < 8 → ¬ s.flushFits →
    (∀ e, raiseError e s = .refused .outputOverflow) ∧ exec .eofb s = .refused .outputOverflow ∧
      exec .ext2d s = .refused .outputOverflow ∧ exec .ext1d s = .refused .outputOverflow

/-- 30_encoding.md rules R80 and R92: a run code outside a run of its colour has no meaning, and no code word that
the decoder reads in a state's context is one. The refusal is the model's choice (log 20). -/
def Obligations.RunCodesNeedTheirRun : Prop :=
  (∀ (c : Colour), ∀ r ∈ runRows c, ∀ s : State,
    (s.phase = .mode → exec r.instr s = .refused .runCodeOutsideRun) ∧
      (∀ tot, s.phase = .run1 tot → s.color ≠ c → r.value < 1792 →
        exec r.instr s = .refused .runCodeOutsideRun) ∧
      (∀ r1 tot, s.phase = .run2 r1 tot → s.color = c → r.value < 1792 →
        exec r.instr s = .refused .runCodeOutsideRun)) ∧
    ∀ (s : State) (i : Instr) (rest : List Bool), decode s.context s.stream = .word i rest →
      exec i (s.readTo rest) ≠ .refused .runCodeOutsideRun

/-- The frame of every code word (43_mode_decoder.md rules R157 to R169, 60_exceptions.md rule R201, 20_memory.md
rules R61, R62 and R64): the parameters, the configuration, the counters, the cursors, the store, `IN`, `CA`,
the reference line and the host's side are unchanged; `color` changes for the Vertical codes alone; the cells
left of `a0` are unchanged; a byte of `OUT` changes only at the address `OUT_LEN`, and only for a code word that
ends the job. That `pos`, `color` and the cells left of `a0` stay also where the code word ends the job, though
rule R201 calls them discarded, is the model's choice (log 21). -/
def Obligations.CodeWordFrame : Prop :=
  ∀ (i : Instr) (s t : State), exec i s = .next t →
    (t.params = s.params ∧ t.cfgWidth = s.cfgWidth ∧ t.cfgMode = s.cfgMode ∧ t.cfgSkipLead = s.cfgSkipLead ∧
      t.cfgSkipTail = s.cfgSkipTail ∧ t.cfgInLen = s.cfgInLen) ∧
    (t.lines = s.lines ∧ t.order = s.order ∧ t.pos = s.pos ∧ t.rpos = s.rpos ∧ t.y = s.y ∧ t.sel = s.sel) ∧
    (t.store = s.store ∧ t.inMem = s.inMem ∧ t.ca = s.ca ∧ t.ref = s.ref) ∧
    (t.hostOps = s.hostOps ∧ t.hostData = s.hostData ∧ t.fresh = s.fresh) ∧
    (i ∉ verticalCodes.map (·.1) → t.color = s.color) ∧
    (t.cur.length = s.cur.length ∧ ∀ p, p < s.a0 → cell t.cur p = cell s.cur p) ∧
    (∀ a, a ≠ s.outLen → Memory.read t.outMem a = Memory.read s.outMem a) ∧
    (t.status = s.status → s.status = .busy .decode →
      t.acc = s.acc ∧ t.outLen = s.outLen ∧ t.outMem = s.outMem)

/-! ## The decode step -/

/-- 43_mode_decoder.md rules R150 and R151: with no access of the host pending, a step of a running decode job
whose next bits are a code word is the meaning of that code word, in the state after its bits were read, and
then what `afterCode` says: an ended job stops, an open Horizontal pair goes on, a finished mode completes
the line when `a0 > W`. -/
def Obligations.StepRunsTheDecodedInstruction : Prop :=
  ∀ (s : State) (i : Instr) (rest : List Bool), s.hostOps = [] → s.status = .busy .decode →
    decode s.context s.stream = .word i rest →
    step s = afterCode (exec i (s.readTo rest)) ∧ (s.readTo rest).stream = rest

/-- 40_bitio.md rule R103, 41_runlength.md rules R128 and R129, 43_mode_decoder.md rule R153: bits that start no
code word end the job with InvalidEOFB in the mode context and with UnknownCode in a run; bits that end
inside a code word, or before its first bit, end it with EndOfStream. -/
def Obligations.UnreadableBitsEndTheJob : Prop :=
  ∀ s : State, s.hostOps = [] → s.status = .busy .decode →
    (∀ e rest, decode s.context s.stream = .dead e rest →
      step s = raiseError e (s.readTo rest) ∧ (e = .invalidEofb ↔ s.phase = .mode) ∧
        (e = .unknownCode ↔ s.phase ≠ .mode)) ∧
    (decode s.context s.stream = .short → step s = raiseError .endOfStream (s.readTo []))

/-- 43_mode_decoder.md rule R158 as one step: on `001`, a run sequence of `color` and one of its opposite, of any
make-up codes in any order, the step is the one bounds check `max(a0,1) + r1 + r2 > W + 1`, the two fills,
and the completion of the line. -/
def Obligations.HorizontalStep : Prop :=
  ∀ (s : State) (m1 m2 : List RunRow) (t1 t2 : RunRow) (rest : List Bool),
    s.status = .busy .decode → s.phase = .mode →
    (∀ r ∈ m1, r ∈ runRows s.color ∧ 64 ≤ r.value) → t1 ∈ runRows s.color → t1.value < 64 →
    (∀ r ∈ m2, r ∈ runRows (invert s.color) ∧ 64 ≤ r.value) → t2 ∈ runRows (invert s.color) →
    t2.value < 64 →
    s.stream =
      encode .h ++ (m1 ++ [t1]).flatMap (fun r => encode r.instr) ++
        (m2 ++ [t2]).flatMap (fun r => encode r.instr) ++ rest →
    decodeStep s =
      (let r1 := ((m1 ++ [t1]).map (·.value)).sum
       let r2 := ((m2 ++ [t2]).map (·.value)).sum
       let u := s.readTo rest
       if u.width + 1 < max u.a0 1 + r1 + r2 then raiseError .outOfBounds u
       else
         afterCode
           (.next
             { u.setCur
                 (fill (fill u.cur (max u.a0 1) (max u.a0 1 + r1) u.color) (max u.a0 1 + r1)
                   (max u.a0 1 + r1 + r2) (invert u.color)) with
               a0 := max u.a0 1 + r1 + r2 }))

/-- 41_runlength.md rule R132, for every colour and every natural `n`: the bits EmitRun(c, n) writes, read back in a
run of that colour, give `n` and are exactly the bits consumed. -/
def Obligations.RunBitsReadBack : Prop :=
  ∀ (s : State) (n : Nat) (rest : List Bool), s.status = .busy .decode →
    (s.phase = .run1 0 → s.stream = runBits s.color n ++ rest →
      decodeStep s = decodeStep { s.readTo rest with phase := .run2 n 0 } ∧ (s.readTo rest).stream = rest) ∧
    (∀ r1, s.phase = .run2 r1 0 → s.stream = runBits (invert s.color) n ++ rest →
      decodeStep s = afterCode (horizontal r1 n (s.readTo rest)) ∧ (s.readTo rest).stream = rest)

/-- 43_mode_decoder.md rule R170, 42_store.md rule R143, 10_state.md rule R41: a completed line is appended to the
store, counted, and written to `OUT` or `CA`; the lines swap roles without a copy, `a0` is 0 and `color`
White. -/
def Obligations.LineCompletePushesAndSwaps : Prop :=
  ∀ s : State, s.acc.length < 8 → Memory.wf s.outMem → s.outLen ≤ s.params.maxOutBytes →
    (s.colourStore = true → s.ca.length + s.width ≤ s.params.maxOutBytes →
      lineComplete s =
        .next
          { s with
            store := s.store ++ [scanline s.width s.cur], lines := s.lines + 1
            ca := s.ca ++ scanline s.width s.cur, sel := !s.sel, a0 := 0, color := .white }) ∧
    (s.colourStore = false → s.outLen + (s.acc.length + s.width) / 8 ≤ s.params.maxOutBytes →
      ∃ t, lineComplete s = .next t ∧
        t = { s with
              store := s.store ++ [scanline s.width s.cur], lines := s.lines + 1
              acc := t.acc, outMem := t.outMem, outLen := t.outLen
              sel := !s.sel, a0 := 0, color := .white } ∧
        t.outBits = s.outBits ++ (scanline s.width s.cur).map (colourBit s.params.blackBit) ∧
        t.ref = s.cur ∧ t.cur = s.ref)

/-- 43_mode_decoder.md rule R156: a decode step is never stuck: it answers a next state or is refused because its
output does not fit. It has pushed at most one line, and where the job still runs it has advanced `pos` by at
least one bit, within the input. -/
def Obligations.EveryDecodeStepConsumesABit : Prop :=
  ∀ s : State, s.status = .busy .decode → s.hostOps = [] →
    ((∃ t, step s = .next t) ∨ step s = .refused .outputOverflow) ∧
      ∀ t, step s = .next t →
        t.lines ≤ s.lines + 1 ∧ (t.status = .busy .decode → s.pos < t.pos ∧ t.pos ≤ 8 * s.inLen)

/-- 43_mode_decoder.md rule R156: a decode job ends after at most `8·IN_LEN + 1` steps, with DONE or an error, or is
refused because its output does not fit. -/
def Obligations.DecodeJobEnds : Prop :=
  ∀ s : State, Inv s → s.status = .busy .decode → s.hostOps = [] →
    ∃ n, n ≤ 8 * s.inLen + 1 ∧
      ((∃ t, runSteps n s = .next t ∧ t.hasResult = true) ∨ runSteps n s = .refused .outputOverflow)

/-- 60_exceptions.md rules R201 and R210: a decode step that ends with an error leaves the lines pushed before it in
the store, and every byte of `OUT` and cell of `CA` already written. -/
def Obligations.ErrorsKeepThePushedLines : Prop :=
  ∀ (s t : State) (e : ErrKind), s.status = .busy .decode → s.hostOps = [] → step s = .next t →
    t.status = .error e →
    t.store = s.store ∧ t.lines = s.lines ∧ t.ca = s.ca ∧
      (∀ a, a < s.outLen → Memory.read t.outMem a = Memory.read s.outMem a) ∧ s.outLen ≤ t.outLen

/-! ## Invariants and whole-machine rules -/

/-- 10_state.md rules R24, R29, R37, R39, R42 and R43, 20_memory.md rules R62 and R64: every step keeps the
invariant of the states between steps. -/
def Obligations.StepKeepsTheInvariant : Prop :=
  ∀ s t : State, Inv s → step s = .next t → Inv t

/-- The invariant holds right after reset. The reset values the spec leaves open are the model's choices (log 5, 6
and 7), and this rests on them. -/
def Obligations.ResetHasTheInvariant : Prop := Inv State.reset

/-- 42_store.md rules R143 to R146, 10_state.md rules R35, R36 and R40: a decode step keeps the output equal to the
lines pushed: the packed bitmap bit for bit, zero-padded to a byte at the end of the job, or the colour
array. -/
def Obligations.OutputIsTheLinesPushed : Prop :=
  ∀ s t : State, Inv s → s.status = .busy .decode → s.hostOps = [] → DecodeOutput s → step s = .next t →
    (t.lines = t.store.length ∧ (∀ row ∈ t.store, row.length = t.width)) ∧
      (t.colourStore = true → t.ca = t.pixels ∧ t.outLen = 0 ∧ t.acc = []) ∧
      (t.colourStore = false → t.status = .busy .decode →
        t.outBits = t.pixels.map (colourBit t.params.blackBit)) ∧
      (t.colourStore = false → t.hasResult = true →
        t.acc = [] ∧ ∃ k, k < 8 ∧
          t.outBits = t.pixels.map (colourBit t.params.blackBit) ++ List.replicate k false) ∧
      (t.status = .busy .decode ∨ t.hasResult = true)

/-- 42_store.md rules R141 and R142, 10_state.md rule R28: an accepted START_DECODE starts with an empty store and
an empty output. -/
def Obligations.StartHasNoOutput : Prop :=
  ∀ s t : State, startJob .decode s = .next t → DecodeOutput t ∧ t.store = [] ∧ t.outBits = []

/-- 10_state.md rule R43 and 70_reset_and_hazards.md rule R229: the old contents of the current line are never
observable: from two states that differ in them alone, a step gives the same outcome but for them. -/
def Obligations.StalePixelsAreNotObservable : Prop :=
  ∀ s s' : State, Inv s → s.status = .busy .decode → SameButStale s s' →
    (∀ t, step s = .next t → ∃ t', step s' = .next t' ∧ SameButStale t t') ∧
      (∀ r, step s = .refused r → step s' = .refused r)

/-- 42_store.md rule R140: the lines pushed, the errors and `STATUS` do not depend on the store's variant: from two
states that differ in it, and in what it writes, alone, two decode steps that both answer a next state
differ in these alone. -/
def Obligations.VariantDoesNotMatter : Prop :=
  ∀ s s' t t' : State, s.status = .busy .decode → s.hostOps = [] → s.withoutVariant = s'.withoutVariant →
    step s = .next t → step s' = .next t' → t.withoutVariant = t'.withoutVariant

/-- 20_memory.md rules R61 and R66, 40_bitio.md rule R101: a step of a running job writes neither `IN` nor a
configuration register nor the latched bit order. -/
def Obligations.CoreWritesNoInput : Prop :=
  ∀ s t : State, s.isBusy = true → s.hostOps = [] → step s = .next t →
    t.inMem = s.inMem ∧ t.cfgWidth = s.cfgWidth ∧ t.cfgMode = s.cfgMode ∧ t.cfgSkipLead = s.cfgSkipLead ∧
      t.cfgSkipTail = s.cfgSkipTail ∧ t.cfgInLen = s.cfgInLen ∧ t.order = s.order ∧ t.params = s.params ∧
      t.hostOps = [] ∧ t.hostData = s.hostData ∧ t.fresh = s.fresh

/-- 20_memory.md rule R62: a step of the core writes `OUT` only at `OUT_LEN` and above, up to the new `OUT_LEN`, and
never beyond `P_MAX_OUT_BYTES`. -/
def Obligations.OutIsWrittenInOrder : Prop :=
  ∀ s t : State, Inv s → s.isBusy = true → s.hostOps = [] → step s = .next t →
    s.outLen ≤ t.outLen ∧ t.outLen ≤ s.params.maxOutBytes ∧
      (∀ a, a < s.outLen → Memory.read t.outMem a = Memory.read s.outMem a) ∧
      (∀ a, t.outLen ≤ a → Memory.read t.outMem a = Memory.read s.outMem a)

/-- 10_state.md rules R31, R32 and R33: `b1`, `b2`, `a1` and `a2` are the least positions of their sets, with the
fallback `W + 1`. -/
def Obligations.ChangingElements : Prop :=
  ∀ s : State,
    (∀ p, s.a0 < p → p ≤ s.width → cell s.ref p ≠ cell s.ref (p - 1) → cell s.ref p ≠ s.color → s.b1 ≤ p) ∧
      (s.b1 = s.width + 1 ∨
        (s.a0 < s.b1 ∧ s.b1 ≤ s.width ∧ cell s.ref s.b1 ≠ cell s.ref (s.b1 - 1) ∧
          cell s.ref s.b1 ≠ s.color)) ∧
      (∀ p, s.b1 < p → p ≤ s.width → cell s.ref p ≠ cell s.ref (p - 1) → s.b2 ≤ p) ∧
      (s.b2 = s.width + 1 ∨
        (s.b1 < s.b2 ∧ s.b2 ≤ s.width ∧ cell s.ref s.b2 ≠ cell s.ref (s.b2 - 1))) ∧
      (s.b1 = s.width + 1 → s.b2 = s.width + 1) ∧
      (s.b2 ≤ s.width → cell s.ref s.b2 = s.color) ∧
      (s.a0 ≤ s.width → s.a0 < s.b1 ∧ s.b1 ≤ s.b2 ∧ s.b2 ≤ s.width + 1 ∧ (s.b1 ≤ s.width → s.b1 < s.b2)) ∧
      (∀ p, s.a0 < p → p ≤ s.width → cell s.cur p ≠ cell s.cur (p - 1) → s.a1 ≤ p) ∧
      (s.a1 = s.width + 1 ∨
        (s.a0 < s.a1 ∧ s.a1 ≤ s.width ∧ cell s.cur s.a1 ≠ cell s.cur (s.a1 - 1))) ∧
      (∀ p, s.a1 < p → p ≤ s.width → cell s.cur p ≠ cell s.cur (p - 1) → s.a2 ≤ p) ∧
      (s.a2 = s.width + 1 ∨
        (s.a1 < s.a2 ∧ s.a2 ≤ s.width ∧ cell s.cur s.a2 ≠ cell s.cur (s.a2 - 1)))

/-! ## The bit streams -/

/-- 20_memory.md rule R60: stream bit `i` is bit `7 − (i mod 8)` of `IN[i div 8]` most significant first, bit
`i mod 8` least significant first, in the latched order, and so in that of `CFG_MODE.ORDER` where the two are
the same, as in every running job. -/
def Obligations.InputBitOrder : Prop :=
  ∀ (s : State) (i : Nat),
    s.bit i =
      (if s.order = false then (Memory.read s.inMem (i / 8)).getLsbD (7 - i % 8)
      else (Memory.read s.inMem (i / 8)).getLsbD (i % 8)) ∧
    (s.order = s.cfgOrder →
      s.bit i =
        if s.cfgMode.getLsbD 0 = false then (Memory.read s.inMem (i / 8)).getLsbD (7 - i % 8)
        else (Memory.read s.inMem (i / 8)).getLsbD (i % 8))

/-- 40_bitio.md rules R102, R103 and R104: NEXT delivers bit `pos` and moves `pos` by one while
`pos < 8·IN_LEN`, and nothing after; ReadBit raises EndOfStream there; PEEK moves nothing, gives the bits NEXT
would deliver, `min(n, 8·IN_LEN − pos)` of them, and is refused above 24. -/
def Obligations.UnpackerDeliversTheInput : Prop :=
  ∀ s : State,
    (s.pos < 8 * s.inLen →
      s.next = some (s.bit s.pos, { s with pos := s.pos + 1 }) ∧
        s.readBit = .ok (s.bit s.pos, { s with pos := s.pos + 1 })) ∧
    (8 * s.inLen ≤ s.pos → s.next = none ∧ s.readBit = .error .endOfStream) ∧
    (∀ n, n ≤ 24 → ∃ bits, peekOp n s = .ok bits ∧ bits.length = min n (8 * s.inLen - s.pos) ∧
      ∀ k, k < bits.length → bits[k]? = some (s.bit (s.pos + k))) ∧
    (∀ n, 24 < n → peekOp n s = .error .peekTooWide)

/-- 40_bitio.md rules R105, R106 and R107: WRITE_BITS appends the low `count` bits of `value`, most significant
first, to the output, and ignores the others; `count > 16` is refused. -/
def Obligations.WriteBitsAppendsTheLowBits : Prop :=
  ∀ (value count : Nat) (s : State),
    (16 < count → writeBitsOp value count s = .refused .writeTooWide) ∧
      (count ≤ 16 → s.acc.length < 8 → Memory.wf s.outMem →
        s.outLen + (s.acc.length + count) / 8 ≤ s.params.maxOutBytes →
        writeBitsOp value count s = writeBitsOp (value % 2 ^ count) count s ∧
          ∃ t, writeBitsOp value count s = .next t ∧ t.outBits = s.outBits ++ bin value count ∧
            t.acc.length < 8 ∧ t = { s with acc := t.acc, outMem := t.outMem, outLen := t.outLen })

/-- 40_bitio.md rules R108 and R109, 10_state.md rule R39: FLUSH completes the byte in progress with zero bits and
leaves no partial byte; without a byte in progress, as at a second FLUSH, it does nothing, even where `OUT` is
full. -/
def Obligations.FlushIsIdempotent : Prop :=
  ∀ s : State, s.acc.length < 8 → Memory.wf s.outMem → (s.acc ≠ [] → s.outLen < s.params.maxOutBytes) →
    ∃ t, doneOp s = .next t ∧ s.flush = some t ∧ t.acc = [] ∧ t.flush = some t ∧
      (s.acc = [] → t = s) ∧
      (s.acc ≠ [] →
        t.outLen = s.outLen + 1 ∧
          t.outBits = s.outBits ++ List.replicate (8 - s.acc.length) false ∧
          ∀ a, a ≠ s.outLen → Memory.read t.outMem a = Memory.read s.outMem a)

/-- 40_bitio.md rule R110: what is written with WRITE_BITS from an empty packer and finished with DONE, put in `IN`
and read most significant bit first, gives the written bits in order, then the zero bits of the padding. -/
def Obligations.WriterThenReaderIsTheIdentity : Prop :=
  ∀ (s t u : State) (words : List (Nat × Nat)), s.acc = [] → s.outLen = 0 → Memory.wf s.outMem →
    (∀ w ∈ words, w.2 ≤ 16) →
    words.foldl (fun r w => match r with | .next v => writeBitsOp w.1 w.2 v | r => r)
      (Host.Outcome.next s : Result) = .next t →
    doneOp t = .next u → u.outLen < 2 ^ 32 →
    ∃ k, k < 8 ∧
      State.stream
          { u with inMem := u.outMem, cfgInLen := BitVec.ofNat 32 u.outLen, order := false, pos := 0 } =
        words.flatMap (fun w => bin (w.1 % 2 ^ w.2) w.2) ++ List.replicate k false

/-! ## The encoder -/

/-- 44_encoder.md rule R182: LoadLine(y) fills cell 0 with White and the cells `1..W` from the source bits of the
line, leaves `rpos` at the end of the line, and for a line of the source stays within the input. -/
def Obligations.LoadLineReadsTheSource : Prop :=
  ∀ s : State,
    cell (loadLine s).cur 0 = .white ∧ (loadLine s).cur.length = s.width + 1 ∧
      (∀ x, 1 ≤ x → x ≤ s.width →
        cell (loadLine s).cur x =
          if (Memory.read s.inMem ((s.y * s.stride + s.cfgSkipLead.toNat + (x - 1)) / 8)).getLsbD
              (7 - (s.y * s.stride + s.cfgSkipLead.toNat + (x - 1)) % 8) = s.params.blackBit
          then .black else .white) ∧
      (loadLine s).rpos = (s.y + 1) * s.stride ∧
      (s.y < s.height → (s.y + 1) * s.stride ≤ 8 * s.inLen) ∧
      loadLine s = { s.setCur (loadLine s).cur with rpos := (loadLine s).rpos }

/-- 44_encoder.md rules R183 to R186: CodeStep emits Pass when `b2 < a1`, else the Vertical code of the offset when
`|a1 − b1| ≤ 3`, else Horizontal with its two runs, and sets `a0` and `color` as each says. -/
def Obligations.EncoderModeDecision : Prop :=
  ∀ s t : State, codeStep s = some t →
    (s.b2 < s.a1 → ∃ u, s.writeBits [false, false, false, true] = some u ∧ t = { u with a0 := s.b2 }) ∧
      (¬ s.b2 < s.a1 → ∀ code ∈ verticalCodes, (s.a1 : Int) - s.b1 = code.2.1 →
        ∃ u, s.writeBits code.2.2 = some u ∧ t = { u with a0 := s.a1, color := invert s.color }) ∧
      (¬ s.b2 < s.a1 → 3 < ((s.a1 : Int) - s.b1).natAbs →
        ∃ u,
          s.writeBits
              ([false, false, true] ++ runBits s.color (s.a1 - max s.a0 1) ++
                runBits (invert s.color) (s.a2 - s.a1)) = some u ∧
            t = { u with a0 := s.a2 })

/-- 41_runlength.md rules R130 and R131: RunCodes is the greedy split, the largest make-up value first, the
terminating code last; every value it asks for has one code word of the table. -/
def Obligations.RunCodesIsGreedy : Prop :=
  ∀ (c : Colour) (n : Nat),
    (n < 64 → ∃ r ∈ runRows c, r.value = n ∧ runCodes c n = [r.instr]) ∧
      (64 ≤ n → ∃ r ∈ runRows c, r.value = min 2560 (64 * (n / 64)) ∧
        runCodes c n = r.instr :: runCodes c (n - r.value)) ∧
      runBits c n = (runCodes c n).flatMap encode

/-- 44_encoder.md rule R187: every CodeStep strictly increases `a0`, to `W + 1` at most. -/
def Obligations.EveryCodeStepMovesRight : Prop :=
  ∀ s t : State, s.a0 ≤ s.width → codeStep s = some t →
    s.a0 < t.a0 ∧ t.a0 ≤ s.width + 1 ∧ t.width = s.width

/-- 44_encoder.md rules R180, R188 and R189: before the last line an encode step is a mode decision, after a load of
the source line at its start, and ends the line when `a0 > W`; after the last line it writes EOFB, flushes
and ends the job with DONE. That the load and the end of a line share the step of a decision, and that the
termination is a step of its own, is the model's choice (log 12). -/
def Obligations.EncodeStep : Prop :=
  ∀ s : State, s.hostOps = [] → s.status = .busy .encode →
    (s.y < s.height → ∀ t, codeStep (if s.a0 = 0 then loadLine s else s) = some t →
      (t.a0 ≤ t.width → step s = .next t) ∧
        (t.width < t.a0 →
          step s =
            .next
              { t with sel := !t.sel, lines := t.lines + 1, y := t.y + 1, a0 := 0, color := .white })) ∧
      (s.height ≤ s.y → s.acc.length < 8 → Memory.wf s.outMem →
        s.outLen + (s.acc.length + 31) / 8 ≤ s.params.maxOutBytes →
        ∃ t k, step s = .next t ∧ t.status = .done ∧ t.acc = [] ∧ k < 8 ∧
          t.outBits = s.outBits ++ eol ++ eol ++ List.replicate k false ∧
          t = { s with acc := t.acc, outMem := t.outMem, outLen := t.outLen, status := .done })

/-- 44_encoder.md rules R187 and R191: an encode job ends with DONE after at most `Hgt·(W + 1)` mode decisions and
the termination, or is refused because its output does not fit. The number of steps rests on the model's choice
of an encode step (log 12). -/
def Obligations.EncodeJobEnds : Prop :=
  ∀ s : State, Inv s → s.status = .busy .encode → s.hostOps = [] →
    ∃ n, n ≤ s.height * (s.width + 1) + 1 ∧
      ((∃ t, runSteps n s = .next t ∧ t.status = .done) ∨ runSteps n s = .refused .outputOverflow)

/-- 44_encoder.md rules R184 to R186 and 43_mode_decoder.md rules R157 to R166: the decoder's step is the inverse of
the encoder's. A decode step that reads the bits of an encoder's mode decision, on the same reference line at
the same position and with the same line so far, moves to the same `a0` and `color` and has decoded the
encoder's pixels up to there. -/
def Obligations.DecoderInvertsTheEncoder : Prop :=
  ∀ (e e' d : State) (rest : List Bool),
    e.width = d.width → e.ref = d.ref → e.a0 = d.a0 → e.color = d.color → e.a0 ≤ e.width →
    e.cur.length = e.width + 1 → d.cur.length = d.width + 1 → cell e.cur e.a0 = e.color →
    (∀ p, 1 ≤ p → p < e.a0 → cell d.cur p = cell e.cur p) →
    codeStep e = some e' → d.status = .busy .decode → d.phase = .mode →
    d.stream = e.decisionBits ++ rest →
    ∃ d', decodeStep d = afterCode (.next d') ∧ d'.a0 = e'.a0 ∧ d'.color = e'.color ∧
      (∀ p, 1 ≤ p → p < e'.a0 → cell d'.cur p = cell e.cur p) ∧
      (e'.a0 ≤ e.width → cell e.cur e'.a0 = e'.color) ∧
      d' = { (d.readTo rest).setCur d'.cur with a0 := d'.a0, color := d'.color }

/-- 43_mode_decoder.md rule R174: the round trip. Where an encode job started from `s` ends with DONE in `t`, a
decode job of the same width on its output, most significant bit first, with room for its lines, ends with
DONE, its store holds exactly the source lines, and its output is their packed or colour form. -/
def Obligations.DecodeOfEncodeIsTheImage : Prop :=
  ∀ (s t d : State) (n : Nat), 1 ≤ s.width → s.hostOps = [] → Memory.wf s.outMem →
    runSteps n (beginJob .encode s) = .next t → t.status = .done →
    d.width = s.width → d.cfgOrder = false → d.hostOps = [] → Memory.wf d.outMem → d.inLen = t.outLen →
    (∀ a, a < t.outLen → Memory.read d.inMem a = Memory.read t.outMem a) →
    s.height * s.width ≤ d.params.maxOutBytes →
    ∃ m u, runSteps m (beginJob .decode d) = .next u ∧ u.status = .done ∧ u.store = s.sourceLines ∧
      u.lines = s.height ∧ (d.colourStore = true → u.ca = u.pixels) ∧
      (d.colourStore = false → ∃ k, k < 8 ∧
        u.outBits = u.pixels.map (colourBit d.params.blackBit) ++ List.replicate k false)

/-! ## Reset and the host -/

/-- The model's order of the host's accesses and the core's steps (log 1): a pending access is taken alone, with the
core standing still; without one, or where the host waits, the core moves; a core without a job waits
(70_reset_and_hazards.md rule R221). -/
def Obligations.HostAccessesAreTakenAlone : Prop :=
  ∀ s : State, (s.hostOps = [] → step s = coreStep s) ∧
    (∀ ops, s.hostOps = .wait :: ops → step s = coreStep { s with hostOps := ops }) ∧
    (∀ op ops, op ≠ .wait → s.hostOps = op :: ops → step s = hostStep op { s with hostOps := ops }) ∧
    (s.isBusy = false → coreStep s = .next s)

/-- 20_memory.md rules R61 and R69: with no job running, a byte the host writes into `IN` reads as written, and every
other byte as before; an address at or beyond `P_MAX_IN_BYTES` is a fault (the model's choice, log 15). -/
def Obligations.InputBytesReadBack : Prop :=
  ∀ (s : State) (ops : List HostOp) (a : Nat) (v : Byte), s.isBusy = false → Memory.wf s.inMem →
    s.hostOps = .writeIn a v :: ops →
    (a < s.params.maxInBytes →
      ∃ t, step s = .next t ∧ Memory.read t.inMem a = v ∧
        (∀ b, b ≠ a → Memory.read t.inMem b = Memory.read s.inMem b) ∧
        t = { s with inMem := t.inMem, hostOps := ops }) ∧
      (s.params.maxInBytes ≤ a → step s = .fault .inAddress)

/-- 10_state.md rule R44, 70_reset_and_hazards.md rule R221: the values the spec gives for reset, and that the core
then waits. -/
def Obligations.ResetValues : Prop :=
  State.reset.cfgWidth = 0 ∧ State.reset.cfgMode = 0 ∧ State.reset.cfgSkipLead = 0 ∧
    State.reset.cfgSkipTail = 0 ∧ State.reset.cfgInLen = 0 ∧ State.reset.status = .idle ∧
    statusWord State.reset.status = 0 ∧ State.reset.lines = 0 ∧ State.reset.outLen = 0 ∧
    State.reset.pos = 0 ∧ State.reset.rpos = 0 ∧ State.reset.y = 0 ∧ State.reset.a0 = 0 ∧
    hostReadReg 5 State.reset = .next { State.reset with hostData := .word 0 } ∧
    State.reset.color = .white ∧ State.reset.sel = false ∧ State.reset.acc = [] ∧ State.reset.store = [] ∧
    step State.reset = .next State.reset

/-- 70_reset_and_hazards.md rule R220, 10_state.md rule R44: a reset by the host, in any state, puts every register
at its reset value and abandons a running job; `IN`, the parameters and the host's side stay. That the host's
side stays, and that `OUT`, `CA`, the line buffers and the latched order, which the rules leave unspecified,
are those of `State.reset`, is the model's choice (log 23). -/
def Obligations.ResetAbandonsTheJob : Prop :=
  ∀ (s : State) (ops : List HostOp), s.hostOps = .reset :: ops →
    ∃ t, step s = .next t ∧ t.status = .idle ∧ t.inMem = s.inMem ∧ t.params = s.params ∧ t.hostOps = ops ∧
      t.hostData = s.hostData ∧ t.fresh = s.fresh ∧
      { t with params := State.reset.params, inMem := State.reset.inMem, hostOps := State.reset.hostOps
               hostData := State.reset.hostData, fresh := State.reset.fresh } = State.reset

/-- 10_state.md rules R26 and R28, 42_store.md rules R141 and R142: an accepted START, with legal sizes and no job
running, makes the core BUSY with a fresh job: counts 0, both lines all White, cursors 0, an empty packer and
store, the bit order latched (40_bitio.md rule R101); everything else stays. That `CA` keeps its cells through
the START of an encode or a packed decode job is the model's choice (log 25). -/
def Obligations.StartBeginsAFreshJob : Prop :=
  ∀ (s : State) (j : Job) (v : Reg), s.isBusy = false → 1 ≤ s.width → s.width ≤ s.params.maxWidth →
    s.inLen ≤ s.params.maxInBytes → (j = .encode → s.cfgOrder = false) →
    v.toNat % 4 = (if j = .decode then 1 else 2) →
    ∃ t, hostWriteReg 5 v s = .next t ∧ t.status = .busy j ∧
      (∀ p, p ≤ s.width → cell t.buf0 p = .white ∧ cell t.buf1 p = .white) ∧
      t = { s with
            status := .busy j, lines := 0, outLen := 0, order := s.cfgOrder
            buf0 := List.replicate (s.width + 1) .white, buf1 := List.replicate (s.width + 1) .white
            sel := false, a0 := 0, color := .white, phase := .mode, pos := 0, rpos := 0, y := 0, acc := []
            store := [], ca := if j = .decode ∧ s.colourStore = true then [] else s.ca }

/-- 60_exceptions.md rule R212, 10_state.md rule R26: the refused STARTs: while BUSY, `CMD = 3`, an illegal width,
an input too long, and START_ENCODE with `ORDER = 1`; `CMD = 0` does nothing. -/
def Obligations.StartIsRefused : Prop :=
  ∀ (s : State) (v : Reg),
    (v.toNat % 4 = 0 → hostWriteReg 5 v s = .next s) ∧
      (v.toNat % 4 = 3 → hostWriteReg 5 v s = .refused .reservedCommand) ∧
      ∀ j : Job, v.toNat % 4 = (if j = .decode then 1 else 2) →
        (s.isBusy = true → hostWriteReg 5 v s = .refused .startWhileBusy) ∧
        (s.isBusy = false → s.width = 0 ∨ s.params.maxWidth < s.width →
          hostWriteReg 5 v s = .refused .illegalWidth) ∧
        (s.isBusy = false → 1 ≤ s.width → s.width ≤ s.params.maxWidth → s.params.maxInBytes < s.inLen →
          hostWriteReg 5 v s = .refused .inputTooLong) ∧
        (s.isBusy = false → 1 ≤ s.width → s.width ≤ s.params.maxWidth → s.inLen ≤ s.params.maxInBytes →
          j = .encode → s.cfgOrder = true → hostWriteReg 5 v s = .refused .encodeLsbFirst)

/-- 20_memory.md rules R66, R68 and R69, 70_reset_and_hazards.md rule R225: while BUSY a host write of a
configuration register or of `IN` is refused, and a host read of `LINES`, `OUT_LEN`, `OUT` or `CA` is refused
but in DONE and ERROR. That a read of a configuration register while BUSY is refused is log 13. -/
def Obligations.HostKeepsAwayFromARunningJob : Prop :=
  ∀ (s : State) (ops : List HostOp),
    (s.isBusy = true →
      (∀ no v, no ≤ 4 → step { s with hostOps := .writeReg no v :: ops } = .refused .hostWriteWhileBusy) ∧
        (∀ no, no ≤ 4 → step { s with hostOps := .readReg no :: ops } = .refused .hostReadTooEarly) ∧
        (∀ a v, step { s with hostOps := .writeIn a v :: ops } = .refused .hostWriteWhileBusy)) ∧
    (s.hasResult = false →
      (∀ no, no = 7 ∨ no = 8 → step { s with hostOps := .readReg no :: ops } = .refused .hostReadTooEarly) ∧
        (∀ a, step { s with hostOps := .readOut a :: ops } = .refused .hostReadTooEarly) ∧
        (∀ k, step { s with hostOps := .readCa k :: ops } = .refused .hostReadTooEarly)) ∧
    (s.isBusy = true → s.hasResult = false)

/-- 10_state.md section 2 and rules R21 to R25: with no job running a configuration register holds what the host
wrote, and the unlisted bits of `CFG_MODE` ignore writes and read 0. -/
def Obligations.ConfigurationReadsBack : Prop :=
  ∀ (s : State) (v : Reg), s.isBusy = false →
    ∀ w ∈ [(0, v), (1, v &&& 3), (2, v), (3, v), (4, v)],
      ∃ t, hostWriteReg w.1 v s = .next t ∧
        hostReadReg w.1 t = .next { t with hostData := .word w.2 } ∧
        t.status = s.status ∧ t.inMem = s.inMem ∧ t.outMem = s.outMem ∧ t.store = s.store

/-- 10_state.md rules R34 and R26, 60_exceptions.md rule R208: `STATUS` reads `STATE` in bits 1..0 and `ERR` in bits
6..4, at any time; `ERR` differs from NONE exactly in ERROR and is at most 5; `CTRL` reads 0. -/
def Obligations.StatusReads : Prop :=
  ∀ s : State,
    hostReadReg 6 s = .next { s with hostData := .word (statusWord s.status) } ∧
      hostReadReg 5 s = .next { s with hostData := .word 0 } ∧
      (statusWord s.status).toNat % 4 = statusState s.status ∧
      (statusWord s.status).toNat / 16 = statusErr s.status ∧
      (statusErr s.status ≠ 0 ↔ statusState s.status = 3) ∧ statusErr s.status ≤ 5

/-- 20_memory.md rules R62, R64 and R66, 10_state.md rules R35 and R36, 42_store.md rule R145: after DONE or ERROR the
host reads `LINES` and `OUT_LEN`, the bytes of `OUT` below `OUT_LEN` and the cells of `CA`. -/
def Obligations.ResultsAreReadable : Prop :=
  ∀ s : State, s.hasResult = true →
    (s.lines < 2 ^ 32 → hostReadReg 7 s = .next { s with hostData := .word (BitVec.ofNat 32 s.lines) }) ∧
    (s.outLen < 2 ^ 32 → hostReadReg 8 s = .next { s with hostData := .word (BitVec.ofNat 32 s.outLen) }) ∧
    (∀ a, a < s.outLen → a < s.params.maxOutBytes →
      hostReadOut a s = .next { s with hostData := .byte (Memory.read s.outMem a) }) ∧
    (∀ k c, k < s.params.maxOutBytes → s.ca[k]? = some c →
      hostReadCa k s = .next { s with hostData := .colour c })
end

