-- ==== Sys2Proof/Laws/State.lean ====
section
/-! SUPPORT. The small lemmas of the state's named updates and views: one per field of `State.setCur`, what the
two lines are after it, and what the views of the configuration read. -/

namespace Sys2Proof.Machine

variable (s : State) (l : List Colour)

@[simp] theorem State.setCur_params : (s.setCur l).params = s.params := rfl
@[simp] theorem State.setCur_cfgWidth : (s.setCur l).cfgWidth = s.cfgWidth := rfl
@[simp] theorem State.setCur_cfgMode : (s.setCur l).cfgMode = s.cfgMode := rfl
@[simp] theorem State.setCur_cfgSkipLead : (s.setCur l).cfgSkipLead = s.cfgSkipLead := rfl
@[simp] theorem State.setCur_cfgSkipTail : (s.setCur l).cfgSkipTail = s.cfgSkipTail := rfl
@[simp] theorem State.setCur_cfgInLen : (s.setCur l).cfgInLen = s.cfgInLen := rfl
@[simp] theorem State.setCur_status : (s.setCur l).status = s.status := rfl
@[simp] theorem State.setCur_lines : (s.setCur l).lines = s.lines := rfl
@[simp] theorem State.setCur_outLen : (s.setCur l).outLen = s.outLen := rfl
@[simp] theorem State.setCur_order : (s.setCur l).order = s.order := rfl
@[simp] theorem State.setCur_pos : (s.setCur l).pos = s.pos := rfl
@[simp] theorem State.setCur_a0 : (s.setCur l).a0 = s.a0 := rfl
@[simp] theorem State.setCur_color : (s.setCur l).color = s.color := rfl
@[simp] theorem State.setCur_phase : (s.setCur l).phase = s.phase := rfl
@[simp] theorem State.setCur_rpos : (s.setCur l).rpos = s.rpos := rfl
@[simp] theorem State.setCur_y : (s.setCur l).y = s.y := rfl
@[simp] theorem State.setCur_acc : (s.setCur l).acc = s.acc := rfl
@[simp] theorem State.setCur_sel : (s.setCur l).sel = s.sel := rfl
@[simp] theorem State.setCur_store : (s.setCur l).store = s.store := rfl
@[simp] theorem State.setCur_inMem : (s.setCur l).inMem = s.inMem := rfl
@[simp] theorem State.setCur_outMem : (s.setCur l).outMem = s.outMem := rfl
@[simp] theorem State.setCur_ca : (s.setCur l).ca = s.ca := rfl
@[simp] theorem State.setCur_hostOps : (s.setCur l).hostOps = s.hostOps := rfl
@[simp] theorem State.setCur_hostData : (s.setCur l).hostData = s.hostData := rfl
@[simp] theorem State.setCur_fresh : (s.setCur l).fresh = s.fresh := rfl

@[simp] theorem State.setCur_width : (s.setCur l).width = s.width := rfl
@[simp] theorem State.setCur_inLen : (s.setCur l).inLen = s.inLen := rfl
@[simp] theorem State.setCur_colourStore : (s.setCur l).colourStore = s.colourStore := rfl
@[simp] theorem State.setCur_isBusy : (s.setCur l).isBusy = s.isBusy := rfl

@[simp] theorem State.setCur_cur : (s.setCur l).cur = l := by
  cases h : s.sel <;> simp [State.setCur, State.cur, h]

@[simp] theorem State.setCur_ref : (s.setCur l).ref = s.ref := by
  cases h : s.sel <;> simp [State.setCur, State.ref, h]

@[simp] theorem State.setCur_self : s.setCur s.cur = s := by
  have h0 : (if s.sel then s.cur else s.buf0) = s.buf0 := by cases h : s.sel <;> simp [State.cur, h]
  have h1 : (if s.sel then s.buf1 else s.cur) = s.buf1 := by cases h : s.sel <;> simp [State.cur, h]
  show { s with buf0 := _, buf1 := _ } = s
  rw [h0, h1]

/-- A predicate of both line buffers holds after `setCur` when it held before and holds of the new line. -/
theorem State.setCur_bufs (P : List Colour → Prop) (h0 : P s.buf0) (h1 : P s.buf1) (hl : P l) :
    P (s.setCur l).buf0 ∧ P (s.setCur l).buf1 := by
  cases h : s.sel <;> simp [State.setCur, h, h0, h1, hl]

/-- A predicate of both line buffers is one of the reference line and the current line. -/
theorem State.bufs_iff (P : List Colour → Prop) : (P s.buf0 ∧ P s.buf1) ↔ (P s.ref ∧ P s.cur) := by
  cases h : s.sel <;> simp [State.ref, State.cur, h, and_comm]

@[simp] theorem invert_invert (c : Colour) : invert (invert c) = c := by cases c <;> rfl

theorem ne_iff_eq_invert (c d : Colour) : c ≠ d ↔ c = invert d := by
  cases c <;> cases d <;> simp [invert]

theorem State.isBusy_iff : s.isBusy = true ↔ ∃ j, s.status = .busy j := by
  cases h : s.status <;> simp [State.isBusy, h]

end Sys2Proof.Machine
end

