-- ==== Sys2Proof/Laws/Memory.lean ====
section
/-! SUPPORT. The laws of the byte memories: a read after a write, the canonical form, and that a memory in
canonical form is determined by its reads. -/

namespace Sys2Proof.Machine

@[simp] theorem Memory.read_nil (a : Nat) : Memory.read [] a = Memory.unlisted := rfl

theorem Memory.read_write_same (m : List Host.Cell) (a : Nat) (v : Byte) (h : Memory.wf m) :
    Memory.read (Memory.write m a v) a = v := by
  have below : ∀ m : List Host.Cell, (∀ x ∈ m, a < x.1) → Memory.read m a = Memory.unlisted := by
    intro m
    induction m with
    | nil => intro _; rfl
    | cons x m ih =>
      intro hx
      have := hx x (by simp)
      simp only [Memory.read]
      rw [if_neg (by omega)]
      exact ih fun y hy => hx y (by simp [hy])
  induction m with
  | nil => by_cases hv : v = Memory.unlisted <;> simp [Memory.write, hv, Memory.read]
  | cons x m ih =>
    obtain ⟨b, w⟩ := x
    have hp := h.1
    rw [List.pairwise_cons] at hp
    simp only [Memory.write]
    split
    · split
      · rename_i hab hv
        rw [hv]
        exact below _ fun y hy => by
          rcases List.mem_cons.1 hy with rfl | hy
          · exact hab
          · exact lt_trans hab (hp.1 y hy)
      · simp [Memory.read]
    · split
      · rename_i hab
        subst hab
        split
        · rename_i hv
          rw [hv]
          exact below _ fun y hy => hp.1 y hy
        · simp [Memory.read]
      · rename_i hab
        simp only [Memory.read, if_neg hab]
        exact ih ⟨hp.2, fun y hy => h.2 y (by simp [hy])⟩

theorem Memory.read_write_other (m : List Host.Cell) (a b : Nat) (v : Byte) (h : b ≠ a) :
    Memory.read (Memory.write m a v) b = Memory.read m b := by
  induction m with
  | nil =>
    simp only [Memory.write]
    split
    · rfl
    · simp [Memory.read, h]
  | cons x m ih =>
    obtain ⟨c, w⟩ := x
    simp only [Memory.write]
    split
    · split
      · rfl
      · simp [Memory.read, h]
    · split
      · rename_i hac
        subst hac
        split <;> simp [Memory.read, h]
      · simp only [Memory.read]
        split
        · rfl
        · exact ih

/-- Every address of a memory after a write is the one written or was listed before. -/
theorem Memory.mem_write {m : List Host.Cell} {a : Nat} {v : Byte} {x : Host.Cell}
    (hx : x ∈ Memory.write m a v) : (x = (a, v) ∧ v ≠ Memory.unlisted) ∨ x ∈ m := by
  induction m with
  | nil =>
    simp only [Memory.write] at hx
    split at hx
    · cases hx
    · rename_i hv; exact .inl ⟨by simpa using hx, hv⟩
  | cons y m ih =>
    obtain ⟨b, w⟩ := y
    simp only [Memory.write] at hx
    split at hx
    · split at hx
      · exact .inr hx
      · rename_i hv
        rcases List.mem_cons.1 hx with hx | hx
        · exact .inl ⟨hx, hv⟩
        · exact .inr hx
    · split at hx
      · split at hx
        · exact .inr (List.mem_cons_of_mem _ hx)
        · rename_i hv
          rcases List.mem_cons.1 hx with hx | hx
          · exact .inl ⟨hx, hv⟩
          · exact .inr (List.mem_cons_of_mem _ hx)
      · rcases List.mem_cons.1 hx with hx | hx
        · exact .inr (by simp [hx])
        · exact (ih hx).imp id (List.mem_cons_of_mem _)

/-- A write keeps the canonical form. -/
theorem Memory.write_wf {m : List Host.Cell} (h : Memory.wf m) (a : Nat) (v : Byte) :
    Memory.wf (Memory.write m a v) := by
  refine ⟨?_, fun x hx => (Memory.mem_write hx).elim (fun e => e.1 ▸ e.2) (h.2 x)⟩
  obtain ⟨hp, -⟩ := h
  induction m with
  | nil => simp only [Memory.write]; split <;> simp
  | cons y m ih =>
    obtain ⟨b, w⟩ := y
    have hp' := List.pairwise_cons.1 hp
    simp only [Memory.write]
    split
    · rename_i hab
      split
      · exact hp
      · refine List.pairwise_cons.2 ⟨fun x hx => ?_, hp⟩
        rcases List.mem_cons.1 hx with rfl | hx
        · exact hab
        · exact lt_trans hab (hp'.1 x hx)
    · split
      · rename_i hab
        subst hab
        split
        · exact hp'.2
        · exact List.pairwise_cons.2 ⟨fun x hx => hp'.1 x hx, hp'.2⟩
      · refine List.pairwise_cons.2 ⟨fun x hx => ?_, ih hp'.2⟩
        rcases Memory.mem_write hx with ⟨rfl, -⟩ | hx
        · show b < a
          omega
        · exact hp'.1 x hx

/-- `writeAll` keeps the canonical form. -/
theorem Memory.writeAll_wf {m : List Host.Cell} (h : Memory.wf m) (a : Nat) (vs : List Byte) :
    Memory.wf (writeAll m a vs) := by
  induction vs generalizing m a with
  | nil => exact h
  | cons v vs ih => exact ih (Memory.write_wf h a v) (a + 1)

end Sys2Proof.Machine
end

