-- ==== Sys2Proof/Laws/Lines.lean ====
section
/-! SUPPORT. The laws of the line buffers and of the changing elements: what a fill leaves in each cell, and what
`leastAfter` answers. -/

namespace Sys2Proof.Machine

@[simp] theorem fill_length (l : List Colour) (a e : Nat) (c : Colour) : (fill l a e c).length = l.length := by
  simp [fill]

theorem cell_fill (l : List Colour) (a e p : Nat) (c : Colour) :
    cell (fill l a e c) p = if a ≤ p ∧ p < e ∧ p < l.length then c else cell l p := by
  simp only [cell, fill, List.getD_eq_getElem?_getD, List.getElem?_mapIdx]
  by_cases hp : p < l.length
  · simp [hp]
  · simp [hp]

theorem cell_fill_before (l : List Colour) {a e p : Nat} (c : Colour) (h : p < a) :
    cell (fill l a e c) p = cell l p := by
  rw [cell_fill, if_neg (by omega)]

@[simp] theorem cell_newRow (w p : Nat) : cell (newRow w) p = .white := by
  simp only [cell, newRow, List.getD_eq_getElem?_getD, List.getElem?_replicate]
  split <;> rfl

@[simp] theorem newRow_length (w : Nat) : (newRow w).length = w + 1 := by simp [newRow]

theorem newRow_ok (w : Nat) : LineOk w (newRow w) := ⟨newRow_length w, cell_newRow w 0⟩

@[simp] theorem scanline_length (w : Nat) (l : List Colour) : (scanline w l).length = w := by simp [scanline]

/-- Two lines with the same cells `1..W` have the same scanline. -/
theorem scanline_congr {w : Nat} {l l' : List Colour} (h : ∀ p, 1 ≤ p → p ≤ w → cell l p = cell l' p) :
    scanline w l = scanline w l' := by
  refine List.map_congr_left fun x hx => h _ (by omega) ?_
  have := List.mem_range.1 hx
  omega

/-- What `leastFrom` answers: the least position of the range that satisfies the test. -/
theorem leastFrom_some {ok : Nat → Bool} {p n q : Nat} :
    leastFrom ok p n = some q ↔ (p ≤ q ∧ q < p + n ∧ ok q = true ∧ ∀ r, p ≤ r → r < q → ok r = false) := by
  induction n generalizing p with
  | zero => simp [leastFrom]; omega
  | succ n ih =>
    simp only [leastFrom]
    by_cases hp : ok p = true
    · simp only [hp, if_true, Option.some.injEq]
      constructor
      · rintro rfl
        exact ⟨le_rfl, by omega, hp, fun r h1 h2 => by omega⟩
      · rintro ⟨h1, _, _, h4⟩
        by_contra hne
        have := h4 p le_rfl (by omega)
        simp [hp] at this
    · simp only [hp, Bool.false_eq_true, if_false, ih]
      constructor
      · rintro ⟨h1, h2, h3, h4⟩
        refine ⟨by omega, by omega, h3, fun r hr hq => ?_⟩
        by_cases h : r = p
        · subst h; simpa using hp
        · exact h4 r (by omega) hq
      · rintro ⟨h1, h2, h3, h4⟩
        have : q ≠ p := fun h => hp (h ▸ h3)
        exact ⟨by omega, by omega, h3, fun r hr hq => h4 r (by omega) hq⟩

theorem leastFrom_none {ok : Nat → Bool} {p n : Nat} :
    leastFrom ok p n = none ↔ ∀ r, p ≤ r → r < p + n → ok r = false := by
  induction n generalizing p with
  | zero => simp [leastFrom]; omega
  | succ n ih =>
    simp only [leastFrom]
    by_cases hp : ok p = true
    · simp only [hp, if_true, reduceCtorEq, false_iff, not_forall]
      exact ⟨p, le_rfl, by omega, by simp [hp]⟩
    · simp only [hp, Bool.false_eq_true, if_false, ih]
      constructor
      · intro h r h1 h2
        by_cases hr : r = p
        · subst hr; simpa using hp
        · exact h r (by omega) (by omega)
      · intro h r h1 h2
        exact h r (by omega) (by omega)

/-- What `leastAfter` answers: the least position in `after+1 .. W` that satisfies the test, or `W + 1` when
there is none. -/
theorem leastAfter_spec (ok : Nat → Bool) (w a : Nat) :
    (a < leastAfter ok w a ∧ leastAfter ok w a ≤ w ∧ ok (leastAfter ok w a) = true ∧
        ∀ r, a < r → r < leastAfter ok w a → ok r = false) ∨
      (leastAfter ok w a = w + 1 ∧ ∀ r, a < r → r ≤ w → ok r = false) := by
  unfold leastAfter
  cases h : leastFrom ok (a + 1) (w - a) with
  | none => exact .inr ⟨rfl, fun r h1 h2 => leastFrom_none.1 h r (by omega) (by omega)⟩
  | some q =>
    obtain ⟨h1, h2, h3, h4⟩ := leastFrom_some.1 h
    exact .inl ⟨by simp; omega, by simp; omega, h3, fun r hr hq => h4 r (by omega) (by simpa using hq)⟩

theorem leastAfter_le (ok : Nat → Bool) (w a : Nat) : leastAfter ok w a ≤ w + 1 := by
  rcases leastAfter_spec ok w a with h | h <;> omega

theorem leastAfter_gt (ok : Nat → Bool) {w a : Nat} (h : a ≤ w) : a < leastAfter ok w a := by
  rcases leastAfter_spec ok w a with h' | h' <;> omega

/-- `leastAfter` depends on the test at the positions right of `after` alone. -/
theorem leastAfter_congr {ok ok' : Nat → Bool} {w a : Nat} (h : ∀ r, a < r → r ≤ w → ok r = ok' r) :
    leastAfter ok w a = leastAfter ok' w a := by
  rcases leastAfter_spec ok w a with ⟨h1, h2, h3, h4⟩ | ⟨h1, h2⟩ <;>
    rcases leastAfter_spec ok' w a with ⟨g1, g2, g3, g4⟩ | ⟨g1, g2⟩
  · rcases lt_trichotomy (leastAfter ok w a) (leastAfter ok' w a) with hlt | heq | hgt
    · have := g4 _ h1 hlt; rw [← h _ h1 h2] at this; simp [h3] at this
    · exact heq
    · have := h4 _ g1 hgt; rw [h _ g1 g2] at this; simp [g3] at this
  · have := g2 _ h1 h2; rw [← h _ h1 h2] at this; simp [h3] at this
  · have := h2 _ g1 g2; rw [h _ g1 g2] at this; simp [g3] at this
  · omega

/-! `b1`, `b2`, `a1`, `a2` of a state (10_state.md rules R31 to R33) -/

theorem State.b1_le (s : State) : s.b1 ≤ s.width + 1 := leastAfter_le _ _ _
theorem State.b2_le (s : State) : s.b2 ≤ s.width + 1 := leastAfter_le _ _ _
theorem State.a1_le (s : State) : s.a1 ≤ s.width + 1 := leastAfter_le _ _ _
theorem State.a2_le (s : State) : s.a2 ≤ s.width + 1 := leastAfter_le _ _ _

theorem State.a0_lt_b1 {s : State} (h : s.a0 ≤ s.width) : s.a0 < s.b1 := leastAfter_gt _ h
theorem State.a0_lt_a1 {s : State} (h : s.a0 ≤ s.width) : s.a0 < s.a1 := leastAfter_gt _ h

theorem State.b1_le_b2 (s : State) : s.b1 ≤ s.b2 := by
  rcases Nat.lt_or_ge s.width s.b1 with h | h
  · have h1 : s.b1 = s.width + 1 := le_antisymm s.b1_le h
    rcases leastAfter_spec (changing s.ref) s.width s.b1 with h' | h'
    · omega
    · exact h1 ▸ h'.1 ▸ le_rfl
  · exact le_of_lt (leastAfter_gt _ h)

theorem State.a1_le_a2 (s : State) : s.a1 ≤ s.a2 := by
  rcases Nat.lt_or_ge s.width s.a1 with h | h
  · have h1 : s.a1 = s.width + 1 := le_antisymm s.a1_le h
    rcases leastAfter_spec (changing s.cur) s.width s.a1 with h' | h'
    · omega
    · exact h1 ▸ h'.1 ▸ le_rfl
  · exact le_of_lt (leastAfter_gt _ h)

end Sys2Proof.Machine
end

