-- ==== Sys2Proof/Laws/Packer.lean ====
section
/-! SUPPORT. The laws of the packer (40_bitio.md section 2): what its operations leave unchanged, where they
write `OUT`, and that the output is the sequence of the bits written. -/

namespace Sys2Proof.Machine

/-- What every operation of the packer does: it writes `acc`, `OUT` and `OUT_LEN` alone, and `OUT` only at the
addresses from the old `OUT_LEN` up to the new one. -/
structure PackerFrame (s t : State) : Prop where
  eq : t = { s with acc := t.acc, outMem := t.outMem, outLen := t.outLen }
  acc : s.acc.length < 8 → t.acc.length < 8
  wf : Memory.wf s.outMem → Memory.wf t.outMem
  out : s.outLen ≤ s.params.maxOutBytes → t.outLen ≤ s.params.maxOutBytes
  grow : s.outLen ≤ t.outLen
  below : ∀ a, a < s.outLen → Memory.read t.outMem a = Memory.read s.outMem a
  above : ∀ a, t.outLen ≤ a → Memory.read t.outMem a = Memory.read s.outMem a

theorem PackerFrame.refl (s : State) : PackerFrame s s where
  eq := rfl
  acc := id
  wf := id
  out := id
  grow := le_rfl
  below := fun _ _ => rfl
  above := fun _ _ => rfl

theorem PackerFrame.trans {s t u : State} (h : PackerFrame s t) (g : PackerFrame t u) : PackerFrame s u where
  eq := by rw [g.eq, h.eq]
  acc := g.acc ∘ h.acc
  wf := g.wf ∘ h.wf
  out := fun hs => by
    have hp : t.params = s.params := by rw [h.eq]
    exact hp ▸ g.out (hp ▸ h.out hs)
  grow := h.grow.trans g.grow
  below := fun a ha => (g.below a (lt_of_lt_of_le ha h.grow)).trans (h.below a ha)
  above := fun a ha => (g.above a ha).trans (h.above a (g.grow.trans ha))

/-- What appending a byte does: it needs room, and writes one byte at `OUT_LEN`. -/
theorem State.appendByte_some {s t : State} {v : Byte} :
    s.appendByte v = some t ↔
      s.outLen < s.params.maxOutBytes ∧
        t = { s with outMem := Memory.write s.outMem s.outLen v, outLen := s.outLen + 1 } := by
  unfold State.appendByte
  split
  · rename_i h; simp [h, eq_comm]
  · rename_i h; simp [h]

theorem State.appendByte_frame {s t : State} {v : Byte} (h : s.appendByte v = some t) : PackerFrame s t := by
  obtain ⟨hlt, rfl⟩ := State.appendByte_some.1 h
  exact
    { eq := rfl
      acc := id
      wf := fun hw => Memory.write_wf hw _ _
      out := fun _ => hlt
      grow := Nat.le_succ _
      below := fun a ha => Memory.read_write_other _ _ _ _ (by omega)
      above := fun a ha => Memory.read_write_other _ _ _ _ (by simp at ha; omega) }

/-- What WRITE does: the bit joins the byte in progress, or completes it. -/
theorem State.writeBit_some {s t : State} {b : Bool} :
    s.writeBit b = some t ↔
      (s.acc.length + 1 ≠ 8 ∧ t = { s with acc := s.acc ++ [b] }) ∨
        (s.acc.length + 1 = 8 ∧ s.outLen < s.params.maxOutBytes ∧
          t = { s with
                acc := []
                outMem := Memory.write s.outMem s.outLen (packByte (s.acc ++ [b]))
                outLen := s.outLen + 1 }) := by
  unfold State.writeBit
  split
  · rename_i h; simp [h, State.appendByte_some]
  · rename_i h; simp [h, eq_comm]

theorem State.writeBit_frame {s t : State} {b : Bool} (h : s.writeBit b = some t) : PackerFrame s t := by
  rcases State.writeBit_some.1 h with ⟨h8, rfl⟩ | ⟨h8, hlt, rfl⟩
  · exact { PackerFrame.refl s with
      eq := rfl
      acc := fun ha => by simp; omega }
  · exact
      { eq := rfl
        acc := fun _ => by simp
        wf := fun hw => Memory.write_wf hw _ _
        out := fun _ => hlt
        grow := Nat.le_succ _
        below := fun a ha => Memory.read_write_other _ _ _ _ (by omega)
        above := fun a ha => Memory.read_write_other _ _ _ _ (by simp at ha; omega) }

/-- What writing a bit string does. -/
theorem State.writeBits_frame {s t : State} {bs : List Bool} (h : s.writeBits bs = some t) : PackerFrame s t := by
  induction bs generalizing s with
  | nil => simp only [State.writeBits, Option.some.injEq] at h; exact h ▸ PackerFrame.refl s
  | cons b bs ih =>
    simp only [State.writeBits] at h
    split at h
    · rename_i u hu; exact (State.writeBit_frame hu).trans (ih h)
    · cases h

/-- Writing a bit string in two parts. -/
theorem State.writeBits_append (s : State) (bs cs : List Bool) :
    s.writeBits (bs ++ cs) = (s.writeBits bs).bind fun t => t.writeBits cs := by
  induction bs generalizing s with
  | nil => rfl
  | cons b bs ih =>
    simp only [List.cons_append, State.writeBits]
    cases s.writeBit b with
    | none => rfl
    | some u => exact ih u

/-- When a bit string fits: its whole bytes fit `OUT`. -/
theorem State.writeBits_isSome {s : State} (ha : s.acc.length < 8) (hs : s.outLen ≤ s.params.maxOutBytes)
    (bs : List Bool) :
    (∃ t, s.writeBits bs = some t) ↔ s.outLen + (s.acc.length + bs.length) / 8 ≤ s.params.maxOutBytes := by
  induction bs generalizing s with
  | nil => simp [State.writeBits]; omega
  | cons b bs ih =>
    simp only [State.writeBits]
    by_cases h8 : s.acc.length + 1 = 8
    · by_cases hlt : s.outLen < s.params.maxOutBytes
      · have hu := State.writeBit_some (s := s) (b := b) |>.2 (.inr ⟨h8, hlt, rfl⟩)
        rw [hu]
        simp only
        rw [ih (by simp) (by simpa using hlt)]
        simp only [List.length_nil, List.length_cons]
        omega
      · have hn : s.writeBit b = none := by
          cases hw : s.writeBit b with
          | none => rfl
          | some u =>
            rcases State.writeBit_some.1 hw with ⟨h, _⟩ | ⟨_, h, _⟩
            · exact absurd h8 h
            · exact absurd h hlt
        simp only [hn, List.length_cons]
        constructor
        · rintro ⟨t, ht⟩; cases ht
        · intro h; omega
    · have hu := State.writeBit_some (s := s) (b := b) |>.2 (.inl ⟨h8, rfl⟩)
      rw [hu]
      simp only
      rw [ih (by simp; omega) (by simpa using hs)]
      simp only [List.length_append, List.length_cons, List.length_nil]
      omega

/-! ## The bits written -/

theorem packByte_bits (bs : List Bool) (h : bs.length = 8) : byteBits (packByte bs) = bs := by
  match bs, h with
  | [a, b, c, d, e, f, g, i], _ =>
    cases a <;> cases b <;> cases c <;> cases d <;> cases e <;> cases f <;> cases g <;> cases i <;> rfl

@[simp] theorem byteBits_length (v : Byte) : (byteBits v).length = 8 := by simp [byteBits]

/-- The bytes below an address are those before a write at it. -/
theorem outBytes_write {m : List Host.Cell} (h : Memory.wf m) (n : Nat) (v : Byte) :
    ((List.range (n + 1)).flatMap fun a => byteBits (Memory.read (Memory.write m n v) a)) =
      ((List.range n).flatMap fun a => byteBits (Memory.read m a)) ++ byteBits v := by
  rw [List.range_succ, List.flatMap_append]
  congr 1
  · refine List.flatMap_congr fun a ha => ?_
    rw [Memory.read_write_other _ _ _ _ (by have := List.mem_range.1 ha; omega)]
  · simp [Memory.read_write_same _ _ _ h]

/-- WRITE appends one bit to the output. -/
theorem State.writeBit_outBits {s t : State} {b : Bool} (hw : Memory.wf s.outMem)
    (h : s.writeBit b = some t) : t.outBits = s.outBits ++ [b] := by
  rcases State.writeBit_some.1 h with ⟨h8, rfl⟩ | ⟨h8, hlt, rfl⟩
  · simp [State.outBits]
  · simp only [State.outBits, outBytes_write hw, List.append_nil, List.append_assoc]
    rw [packByte_bits _ (by simpa using h8)]

/-- Writing a bit string appends it to the output. -/
theorem State.writeBits_outBits {s t : State} {bs : List Bool} (hw : Memory.wf s.outMem)
    (h : s.writeBits bs = some t) : t.outBits = s.outBits ++ bs := by
  induction bs generalizing s with
  | nil => simp only [State.writeBits, Option.some.injEq] at h; simp [h]
  | cons b bs ih =>
    simp only [State.writeBits] at h
    split at h
    · rename_i u hu
      rw [ih ((State.writeBit_frame hu).wf hw) h, State.writeBit_outBits hw hu]
      simp
    · cases h

/-! ## FLUSH -/

/-- Bits that do not complete the byte in progress only join it. -/
theorem State.writeBits_short {s : State} {bs : List Bool} (h : s.acc.length + bs.length < 8) :
    s.writeBits bs = some { s with acc := s.acc ++ bs } := by
  induction bs generalizing s with
  | nil => simp [State.writeBits]
  | cons b bs ih =>
    have hu := State.writeBit_some (s := s) (b := b) |>.2 (.inl ⟨by simp at h; omega, rfl⟩)
    simp only [State.writeBits, hu]
    rw [ih (by simp at h ⊢; omega)]
    simp

/-- What FLUSH does: nothing without a byte in progress, else one byte at `OUT_LEN`. -/
theorem State.flush_eq {s : State} (h : s.acc.length < 8) :
    s.flush = if s.acc = [] then some s else { s with acc := [] }.appendByte s.lastByte := by
  unfold State.flush
  by_cases ha : s.acc = []
  · simp [ha]
  · have h0 : s.acc.length ≠ 0 := by simpa using ha
    rw [if_neg h0, if_neg ha]
    have hk : List.replicate (8 - s.acc.length) false = List.replicate (7 - s.acc.length) false ++ [false] := by
      rw [show 8 - s.acc.length = (7 - s.acc.length) + 1 by omega, List.replicate_succ']
    rw [hk, State.writeBits_append, State.writeBits_short (by simp; omega)]
    have h8 : (s.acc ++ List.replicate (7 - s.acc.length) false).length + 1 = 8 := by simp; omega
    simp only [Option.bind_some, State.writeBits, State.writeBit, h8, if_true, State.lastByte, hk,
      List.append_assoc]
    cases State.appendByte _ _ <;> rfl

theorem State.flush_frame {s t : State} (h : s.flush = some t) : PackerFrame s t := by
  unfold State.flush at h
  split at h
  · simp only [Option.some.injEq] at h; exact h ▸ PackerFrame.refl s
  · exact State.writeBits_frame h

/-- After FLUSH the packer holds no partial byte (10_state.md rule R39). -/
theorem State.flush_acc {s t : State} (ha : s.acc.length < 8) (h : s.flush = some t) : t.acc = [] := by
  rw [State.flush_eq ha] at h
  split at h
  · rename_i he; simp only [Option.some.injEq] at h; exact h ▸ he
  · obtain ⟨-, rfl⟩ := State.appendByte_some.1 h; rfl

/-! ## Finalisation and the end of a job -/

theorem State.finalise_frame {s t : State} (h : s.finalise = some t) : PackerFrame s t := by
  unfold State.finalise at h
  split at h
  · exact State.flush_frame h
  · simp only [Option.some.injEq] at h; exact h ▸ PackerFrame.refl s

/-- Finalisation completes the byte in progress of a packed store, and is refused only without room for it. -/
theorem State.finalise_eq {s : State} (h : s.acc.length < 8) :
    s.finalise = if s.flushFits then some s.flushed else none := by
  unfold State.finalise
  by_cases hp : s.packing
  · rw [if_pos hp, State.flush_eq h]
    by_cases ha : s.acc = []
    · simp [State.flushFits, State.flushes, State.flushed, ha]
    · have hf : s.flushes := ⟨hp, ha⟩
      rw [if_neg ha, State.flushed, if_pos hf]
      by_cases hlt : s.outLen < s.params.maxOutBytes
      · rw [if_pos (fun _ => hlt)]; simp [State.appendByte, hlt]
      · rw [if_neg (fun hc => hlt (hc hf))]; simp [State.appendByte, hlt]
  · rw [if_neg hp]
    simp [State.flushFits, State.flushes, State.flushed, hp]

/-- What `orOverflow` answers. -/
theorem orOverflow_next {o : Option State} {k : State → Result} {t : State} :
    orOverflow o k = .next t ↔ ∃ u, o = some u ∧ k u = .next t := by
  cases o <;> simp [orOverflow]

/-- What `raise E` does when it answers a next state (60_exceptions.md rule R201). -/
theorem raiseError_next {e : ErrKind} {s t : State} (h : raiseError e s = .next t) :
    ∃ u, PackerFrame s u ∧ s.finalise = some u ∧ t = { u with phase := .mode, status := .error e } := by
  obtain ⟨u, hu, ht⟩ := orOverflow_next.1 h
  exact ⟨u, State.finalise_frame hu, hu, by simpa using ht.symm⟩

/-- What the successful end of a decode job does when it answers a next state (60_exceptions.md rule R200). -/
theorem finishDecode_next {s t : State} (h : finishDecode s = .next t) :
    ∃ u, PackerFrame s u ∧ s.finalise = some u ∧ t = { u with phase := .mode, status := .done } := by
  obtain ⟨u, hu, ht⟩ := orOverflow_next.1 h
  exact ⟨u, State.finalise_frame hu, hu, by simpa using ht.symm⟩

/-- `raise E` and the successful end answer no fault. -/
theorem raiseError_not_fault (e : ErrKind) (s : State) (f : Fault) : raiseError e s ≠ .fault f := by
  unfold raiseError orOverflow
  split <;> simp

theorem finishDecode_not_fault (s : State) (f : Fault) : finishDecode s ≠ .fault f := by
  unfold finishDecode orOverflow
  split <;> simp

end Sys2Proof.Machine
end

