-- ==== Sys2Proof/Laws/Encode.lean ====
section
/-! SUPPORT. The laws of the encode job (44_encoder.md): what loading a line, a mode decision, the end of a line
and the termination can do. -/

namespace Sys2Proof.Machine

@[simp] theorem State.sourceLine_length (s : State) : s.sourceLine.length = s.width + 1 := by
  simp [State.sourceLine]

@[simp] theorem State.sourceLine_zero (s : State) : cell s.sourceLine 0 = .white := rfl

theorem State.sourceLine_ok (s : State) : LineOk s.width s.sourceLine :=
  ⟨s.sourceLine_length, s.sourceLine_zero⟩

/-- A pixel of the source line (44_encoder.md rule R182). -/
theorem State.sourceLine_cell {s : State} {x : Nat} (h1 : 1 ≤ x) (h2 : x ≤ s.width) :
    cell s.sourceLine x = bitColour s.params.blackBit (s.sourceBit (s.lineStart + (x - 1))) := by
  obtain ⟨k, rfl⟩ : ∃ k, x = k + 1 := ⟨x - 1, by omega⟩
  have hk : k < s.width := by omega
  simp [cell, State.sourceLine, List.getD_eq_getElem?_getD, hk]

/-- The Vertical code of an offset is the row of that offset, and there is one up to 3 (44_encoder.md rule R185). -/
theorem verticalCode_some {a1 b1 : Nat} {code : Instr} (h : verticalCode a1 b1 = some code) :
    ∃ k, (code, k, encode code) ∈ verticalCodes ∧ (a1 : Int) = b1 + k := by
  unfold verticalCode at h
  split at h
  · cases h; exact ⟨0, by decide, by omega⟩
  split at h
  · cases h; exact ⟨1, by decide, by omega⟩
  split at h
  · cases h; exact ⟨2, by decide, by omega⟩
  split at h
  · cases h; exact ⟨3, by decide, by omega⟩
  split at h
  · cases h; exact ⟨-1, by decide, by omega⟩
  split at h
  · cases h; exact ⟨-2, by decide, by omega⟩
  split at h
  · cases h; exact ⟨-3, by decide, by omega⟩
  · cases h

theorem verticalCode_none {a1 b1 : Nat} : verticalCode a1 b1 = none ↔ 3 < ((a1 : Int) - b1).natAbs := by
  unfold verticalCode
  repeat' split
  all_goals simp
  all_goals omega

/-- What a mode decision does: it writes `decisionBits`, moves `a0`, and inverts `color` for a Vertical code alone
(44_encoder.md rules R183 to R186). -/
theorem codeStep_some {s t : State} (h : codeStep s = some t) :
    ∃ u, s.writeBits s.decisionBits = some u ∧
      ((s.b2 < s.a1 ∧ t = { u with a0 := s.b2 }) ∨
        (¬ s.b2 < s.a1 ∧ (∃ code, verticalCode s.a1 s.b1 = some code) ∧
          t = { u with a0 := s.a1, color := invert s.color }) ∨
        (¬ s.b2 < s.a1 ∧ verticalCode s.a1 s.b1 = none ∧ t = { u with a0 := s.a2 })) := by
  unfold codeStep at h
  unfold State.decisionBits
  split at h
  · rename_i hp
    rw [if_pos hp]
    obtain ⟨u, hu, ht⟩ := Option.map_eq_some_iff.1 h
    exact ⟨u, hu, .inl ⟨hp, ht.symm⟩⟩
  · rename_i hp
    rw [if_neg hp]
    split at h
    · rename_i code hc
      obtain ⟨u, hu, ht⟩ := Option.map_eq_some_iff.1 h
      rw [hc]
      exact ⟨u, hu, .inr (.inl ⟨hp, ⟨code, rfl⟩, ht.symm⟩)⟩
    · rename_i hc
      obtain ⟨u, hu, ht⟩ := Option.map_eq_some_iff.1 h
      rw [hc]
      exact ⟨u, hu, .inr (.inr ⟨hp, rfl, ht.symm⟩)⟩

/-- A mode decision needs room for its bits alone. -/
theorem codeStep_isSome (s : State) : (∃ t, codeStep s = some t) ↔ ∃ u, s.writeBits s.decisionBits = some u := by
  unfold codeStep State.decisionBits emitPass emitVertical emitHorizontal
  by_cases hp : s.b2 < s.a1
  · simp only [hp, if_true, Option.map_eq_some_iff]
    exact ⟨fun ⟨_, u, hu, _⟩ => ⟨u, hu⟩, fun ⟨u, hu⟩ => ⟨_, u, hu, rfl⟩⟩
  · simp only [hp, if_false]
    cases verticalCode s.a1 s.b1 <;> simp only [Option.map_eq_some_iff] <;>
      exact ⟨fun ⟨_, u, hu, _⟩ => ⟨u, hu⟩, fun ⟨u, hu⟩ => ⟨_, u, hu, rfl⟩⟩

/-- The frame of a mode decision: the packer, `a0` and `color`. -/
theorem codeStep_frame {s t : State} (h : codeStep s = some t) :
    PackerFrame { s with a0 := t.a0, color := t.color } t := by
  obtain ⟨u, hu, ht⟩ := codeStep_some h
  have hf := State.writeBits_frame hu
  rcases ht with ⟨-, rfl⟩ | ⟨-, -, rfl⟩ | ⟨-, -, rfl⟩ <;>
    exact
      { eq := by rw [hf.eq], acc := hf.acc, wf := hf.wf, out := hf.out, grow := hf.grow
        below := hf.below, above := hf.above }

/-- What the load of a line leaves: the current line and `rpos` are written. -/
theorem startLine_eq (s : State) :
    startLine s = s ∨ (s.a0 = 0 ∧ startLine s = { s.setCur s.sourceLine with rpos := (startLine s).rpos }) := by
  by_cases h : s.a0 = 0
  · refine .inr ⟨h, ?_⟩
    simp only [startLine, if_pos h]
    rfl
  · exact .inl (by simp only [startLine, if_neg h])

/-- What the termination does when it answers a next state (44_encoder.md rule R189). -/
theorem terminate_next {s t : State} (h : terminate s = .next t) :
    ∃ u v, s.writeBits (encode .eofb) = some u ∧ u.flush = some v ∧ PackerFrame s v ∧
      t = { v with status := .done } := by
  obtain ⟨v, hv, ht⟩ := orOverflow_next.1 h
  obtain ⟨u, hu, hf⟩ := Option.bind_eq_some_iff.1 hv
  exact ⟨u, v, hu, hf, (State.writeBits_frame hu).trans (State.flush_frame hf), by simpa using ht.symm⟩

/-- What an encode step does when it answers a next state (44_encoder.md rule R180). -/
theorem encodeStep_next {s t : State} (h : encodeStep s = .next t) :
    (s.y < s.height ∧ ∃ u, codeStep (startLine s) = some u ∧
        ((u.width < u.a0 ∧ t = endLine u) ∨ (u.a0 ≤ u.width ∧ t = u))) ∨
      (s.height ≤ s.y ∧ terminate s = .next t) := by
  unfold encodeStep at h
  split at h
  · rename_i hy
    obtain ⟨u, hu, ht⟩ := orOverflow_next.1 h
    refine .inl ⟨hy, u, hu, ?_⟩
    simp only [Host.Outcome.next.injEq] at ht
    split at ht
    · rename_i hw; exact .inl ⟨hw, ht.symm⟩
    · rename_i hw; exact .inr ⟨by omega, ht.symm⟩
  · rename_i hy; exact .inr ⟨by omega, h⟩

/-- An encode step is refused only without room for its output, and answers no fault. -/
theorem encodeStep_cases (s : State) :
    (∃ t, encodeStep s = .next t) ∨ encodeStep s = .refused .outputOverflow := by
  unfold encodeStep terminate orOverflow
  split <;> split <;> first | exact .inl ⟨_, rfl⟩ | exact .inr rfl

end Sys2Proof.Machine
end

