-- ==== Sys2Proof/Laws/Reader.lean ====
section
/-! SUPPORT. The laws of the unpacker (40_bitio.md section 1): the bits left are the stream, and reading a code
word bit by bit with ReadBit is decoding the stream (41_runlength.md rule R133). -/

namespace Sys2Proof.Machine

@[simp] theorem State.bitsFrom_length (s : State) (p n : Nat) : (s.bitsFrom p n).length = n := by
  induction n generalizing p with
  | zero => rfl
  | succ n ih => simp [State.bitsFrom, ih]

@[simp] theorem State.stream_length (s : State) : s.stream.length = s.bitsLeft := by simp [State.stream]

/-- The bits of the input do not depend on the cursor. -/
theorem State.bitsFrom_setPos (s : State) (q p n : Nat) : State.bitsFrom { s with pos := q } p n = s.bitsFrom p n := by
  induction n generalizing p with
  | zero => rfl
  | succ n ih => simp [State.bitsFrom, ih, State.bit]

/-- What NEXT does: the first bit of the stream, and the cursor one on (40_bitio.md rule R102). -/
theorem State.next_eq (s : State) :
    s.next = if s.bitsLeft = 0 then none else some (s.bit s.pos, { s with pos := s.pos + 1 }) := by
  unfold State.next State.bitsLeft
  by_cases h : s.pos < 8 * s.inLen
  · rw [if_pos h, if_neg (by omega)]
  · rw [if_neg h, if_pos (by omega)]

theorem State.readBit_zero {s : State} (h : s.bitsLeft = 0) : s.readBit = .error .endOfStream := by
  simp [State.readBit, State.next_eq, h]

theorem State.readBit_succ {s : State} {n : Nat} (h : s.bitsLeft = n + 1) :
    s.readBit = .ok (s.bit s.pos, { s with pos := s.pos + 1 }) := by
  simp [State.readBit, State.next_eq, h]

theorem State.bitsLeft_succ {s : State} {n : Nat} (h : s.bitsLeft = n + 1) :
    State.bitsLeft { s with pos := s.pos + 1 } = n := by
  simp only [State.bitsLeft, State.inLen] at h ⊢
  omega

/-- A code word takes at least one bit. -/
theorem scan_rest_lt {e : ErrKind} {book : Codebook} {bits : List Bool} :
    (∀ i rest, scan e book bits = .word i rest → rest.length < bits.length) ∧
      (∀ k rest, scan e book bits = .dead k rest → rest.length < bits.length) := by
  induction bits generalizing book with
  | nil => simp [scan]
  | cons b bits ih =>
    simp only [scan]
    split
    · exact ⟨fun i rest h => by simp at h; simp [h.2], fun k rest h => by simp at h⟩
    · exact ⟨fun i rest h => by simp at h, fun k rest h => by simp at h; simp [h.2]⟩
    · exact ⟨fun i rest h => by have := ih.1 i rest h; simp; omega,
        fun k rest h => by have := ih.2 k rest h; simp; omega⟩

/-- The bits left after a code word are a tail of the bits before it. -/
theorem scan_suffix {e : ErrKind} {book : Codebook} {bits : List Bool} :
    (∀ i rest, scan e book bits = .word i rest → rest <:+ bits) ∧
      (∀ k rest, scan e book bits = .dead k rest → rest <:+ bits) := by
  induction bits generalizing book with
  | nil => simp [scan]
  | cons b bits ih =>
    simp only [scan]
    split
    · exact ⟨fun i rest h => by simp at h; simp [h.2], fun k rest h => by simp at h⟩
    · exact ⟨fun i rest h => by simp at h, fun k rest h => by simp at h; simp [h.2]⟩
    · exact ⟨fun i rest h => (ih.1 i rest h).trans (List.suffix_cons _ _),
        fun k rest h => (ih.2 k rest h).trans (List.suffix_cons _ _)⟩

/-- What a decoded bit string is for the state it was read from. -/
def readingOf (s : State) (n : Nat) : Decoded → Reading
  | .word i rest => .word i { s with pos := s.pos + (n - rest.length) }
  | .dead e rest => .raised e { s with pos := s.pos + (n - rest.length) }
  | .short => .raised .endOfStream { s with pos := s.pos + n }

/-- Reading with ReadBit is scanning the bits left. -/
theorem readLoop_eq_scan (e : ErrKind) (book : Codebook) (n : Nat) (s : State) (h : s.bitsLeft = n) :
    readLoop e book n s = readingOf s n (scan e book (s.bitsFrom s.pos n)) := by
  induction n generalizing book s with
  | zero => simp [readLoop, State.bitsFrom, scan, readingOf]
  | succ n ih =>
    simp only [readLoop, State.readBit_succ h, State.bitsFrom, scan]
    cases book.next (s.bit s.pos) with
    | dead => simp [readingOf]
    | word i => simp [readingOf]
    | more zero one =>
      simp only
      rw [ih (.more zero one) _ (State.bitsLeft_succ h), State.bitsFrom_setPos]
      have hlt := @scan_rest_lt e (.more zero one) (s.bitsFrom (s.pos + 1) n)
      cases hs : scan e (.more zero one) (s.bitsFrom (s.pos + 1) n) with
      | word i rest =>
        have := hlt.1 i rest hs
        simp only [State.bitsFrom_length] at this
        simp only [readingOf, Reading.word.injEq, true_and]
        congr 1
        omega
      | dead k rest =>
        have := hlt.2 k rest hs
        simp only [State.bitsFrom_length] at this
        simp only [readingOf, Reading.raised.injEq, true_and]
        congr 1
        omega
      | short =>
        simp only [readingOf, Reading.raised.injEq, true_and]
        congr 1
        omega

/-- Reading the next code word is decoding the stream in the state's context. -/
theorem readWord_eq_decode (s : State) : readWord s = readingOf s s.bitsLeft (decode s.context s.stream) :=
  readLoop_eq_scan _ _ _ _ rfl

theorem readWord_word {s : State} {i : Instr} {rest : List Bool} (h : decode s.context s.stream = .word i rest) :
    readWord s = .word i (s.readTo rest) := by
  rw [readWord_eq_decode, h]
  simp [readingOf, State.readTo]

theorem readWord_dead {s : State} {e : ErrKind} {rest : List Bool}
    (h : decode s.context s.stream = .dead e rest) : readWord s = .raised e (s.readTo rest) := by
  rw [readWord_eq_decode, h]
  simp [readingOf, State.readTo]

theorem readWord_short {s : State} (h : decode s.context s.stream = .short) :
    readWord s = .raised .endOfStream (s.readTo []) := by
  rw [readWord_eq_decode, h]
  simp [readingOf, State.readTo]

/-- What reading a code word leaves: the cursor alone moves. -/
theorem readWord_cases (s : State) :
    (∃ i rest, decode s.context s.stream = .word i rest ∧ readWord s = .word i (s.readTo rest)) ∨
      (∃ e rest, readWord s = .raised e (s.readTo rest)) := by
  cases h : decode s.context s.stream with
  | word i rest => exact .inl ⟨i, rest, rfl, readWord_word h⟩
  | dead e rest => exact .inr ⟨e, rest, readWord_dead h⟩
  | short => exact .inr ⟨_, [], readWord_short h⟩

/-- The bits left after a code word. -/
theorem State.readTo_bitsLeft {s : State} {i : Instr} {rest : List Bool}
    (h : decode s.context s.stream = .word i rest) :
    (s.readTo rest).bitsLeft = rest.length ∧ rest.length < s.bitsLeft ∧ (s.readTo rest).pos ≤ 8 * s.inLen := by
  have hlt := scan_rest_lt.1 i rest h
  simp only [State.stream_length] at hlt
  simp only [State.bitsLeft, State.readTo, State.inLen, State.stream_length] at hlt ⊢
  omega

/-- The stream after the bits in front of `rest` were read is `rest`. -/
theorem State.readTo_stream {s : State} {rest : List Bool} (h : rest <:+ s.stream) :
    (s.readTo rest).stream = rest := by
  obtain ⟨w, hw⟩ := h
  have hlen : w.length + rest.length = s.bitsLeft := by rw [← s.stream_length, ← hw]; simp
  have hleft : (s.readTo rest).bitsLeft = rest.length := by
    simp only [State.bitsLeft, State.readTo, State.inLen, State.stream_length] at hlen ⊢
    omega
  have drop : ∀ k n p, k ≤ n → (s.bitsFrom p n).drop k = s.bitsFrom (p + k) (n - k) := by
    intro k
    induction k with
    | zero => simp
    | succ k ih =>
      intro n p hk
      cases n with
      | zero => omega
      | succ n =>
        simp only [State.bitsFrom, List.drop_succ_cons]
        rw [ih n (p + 1) (by omega)]
        congr 1 <;> omega
  have : rest = s.stream.drop w.length := by rw [← hw]; simp
  rw [State.stream, hleft, State.readTo, State.bitsFrom_setPos]
  conv_rhs => rw [this, State.stream, drop _ _ _ (by omega)]
  simp only [State.stream_length]
  congr 1 <;> omega

end Sys2Proof.Machine
end

