-- ==== Sys2Proof/Laws/Exec.lean ====
section
/-! SUPPORT. What the meaning of a code word can do: the forms of `exec`, and the three ways it answers a next
state (the job goes on, it ends with an error, it ends with success). -/

namespace Sys2Proof.Machine

/-- The forms of the meanings: one shared operation for each kind of code word. -/
theorem exec_forms (i : Instr) (s : State) :
    exec i s = execP s ∨ exec i s = execH s ∨ (∃ k, exec i s = vertical k s) ∨
      exec i s = raiseError .extensionNotSupported s ∨ exec i s = finishDecode s ∨
      ∃ table v, exec i s = runCode table v s := by
  cases i
  case p => exact .inl rfl
  case h => exact .inr (.inl rfl)
  case ext2d => exact .inr (.inr (.inr (.inl rfl)))
  case ext1d => exact .inr (.inr (.inr (.inl rfl)))
  case eofb => exact .inr (.inr (.inr (.inr (.inl rfl))))
  all_goals first
    | exact .inr (.inr (.inl ⟨_, rfl⟩))
    | exact .inr (.inr (.inr (.inr (.inr ⟨_, _, rfl⟩))))

/-- A code word after which the job goes on: it writes the current line from `a0` on, `a0`, `color` and the
transient phase, and nothing else; `a0` moves right, to `W + 1` at most. -/
structure Moves (s t : State) : Prop where
  eq : ∃ l, t = { s.setCur l with a0 := t.a0, color := t.color, phase := t.phase }
  length : t.cur.length = s.cur.length
  before : ∀ p, p < s.a0 → cell t.cur p = cell s.cur p
  first : cell s.cur 0 = .white → (s.a0 = 0 → s.color = .white) → cell t.cur 0 = .white
  grow : s.a0 ≤ s.width → s.a0 ≤ t.a0
  bound : s.a0 ≤ s.width → t.a0 ≤ s.width + 1
  start : s.a0 ≤ s.width → t.a0 = 0 → t.color = s.color ∧ s.a0 = 0

/-- A code word that only changes the transient phase. -/
theorem Moves.phase {s : State} (ph : Phase) : Moves s { s with phase := ph } where
  eq := ⟨s.cur, by rw [State.setCur_self]⟩
  length := rfl
  before := fun _ _ => rfl
  first := fun h _ => h
  grow := fun _ => le_rfl
  bound := fun h => h.trans (Nat.le_succ _)
  start := fun _ h => ⟨rfl, h⟩

/-- What an out of bounds error, or a fill, does. -/
theorem execP_cases (s : State) :
    execP s = .next { s.setCur (fill s.cur s.a0 s.b2 s.color) with a0 := s.b2 } := by
  unfold execP
  rw [if_neg (by have := s.b2_le; omega)]

theorem execP_moves (s : State) :
    Moves s { s.setCur (fill s.cur s.a0 s.b2 s.color) with a0 := s.b2 } where
  eq := ⟨_, rfl⟩
  length := by show (State.cur (s.setCur _)).length = _; simp
  before := fun p hp => by show cell (State.cur (s.setCur _)) p = _; rw [State.setCur_cur, cell_fill_before _ _ hp]
  first := fun h0 hc => by
    show cell (State.cur (s.setCur _)) 0 = _
    rw [State.setCur_cur, cell_fill]
    split
    · exact hc (by omega)
    · exact h0
  grow := fun h => le_of_lt (lt_of_lt_of_le (State.a0_lt_b1 h) s.b1_le_b2)
  bound := fun _ => s.b2_le
  start := fun h h0 => by
    have := lt_of_lt_of_le (State.a0_lt_b1 h) s.b1_le_b2
    simp at h0
    omega

/-- The Horizontal pair closes, or is out of bounds. -/
theorem horizontal_cases (r1 r2 : Nat) (s : State) :
    (s.width + 1 < s.runStart + r1 + r2 ∧ horizontal r1 r2 s = raiseError .outOfBounds s) ∨
      (s.runStart + r1 + r2 ≤ s.width + 1 ∧
        horizontal r1 r2 s =
          .next
            { s.setCur
                (fill (fill s.cur s.runStart (s.runStart + r1) s.color) (s.runStart + r1)
                  (s.runStart + r1 + r2) (invert s.color)) with
              a0 := s.runStart + r1 + r2, phase := .mode }) := by
  unfold horizontal
  by_cases h : s.width + 1 < s.runStart + r1 + r2
  · exact .inl ⟨h, if_pos h⟩
  · exact .inr ⟨by omega, if_neg h⟩

theorem horizontal_moves {r1 r2 : Nat} {s : State} (h : s.runStart + r1 + r2 ≤ s.width + 1) :
    Moves s
      { s.setCur
          (fill (fill s.cur s.runStart (s.runStart + r1) s.color) (s.runStart + r1)
            (s.runStart + r1 + r2) (invert s.color)) with
        a0 := s.runStart + r1 + r2, phase := .mode } where
  eq := ⟨_, rfl⟩
  length := by show (State.cur (s.setCur _)).length = _; simp
  before := fun p hp => by
    have : p < s.runStart := lt_of_lt_of_le hp (le_max_left _ _)
    show cell (State.cur (s.setCur _)) p = _
    rw [State.setCur_cur, cell_fill_before _ _ (by omega), cell_fill_before _ _ this]
  first := fun h0 _ => by
    have : 0 < s.runStart := lt_of_lt_of_le Nat.one_pos (le_max_right _ _)
    show cell (State.cur (s.setCur _)) 0 = _
    rw [State.setCur_cur, cell_fill_before _ _ (by omega), cell_fill_before _ _ this]
    exact h0
  grow := fun _ => by
    show s.a0 ≤ s.runStart + r1 + r2
    have : s.a0 ≤ s.runStart := le_max_left _ _
    omega
  bound := fun _ => h
  start := fun _ h0 => by
    have : 1 ≤ s.runStart := le_max_right _ _
    simp at h0
    omega

/-- A Vertical code is out of bounds, or fills to `a1`. -/
theorem vertical_cases (k : Int) (s : State) :
    (((s.width : Int) + 1 < (s.b1 : Int) + k ∨ (s.b1 : Int) + k ≤ s.a0) ∧
        vertical k s = raiseError .outOfBounds s) ∨
      ∃ a1 : Nat, (a1 : Int) = (s.b1 : Int) + k ∧ s.a0 < a1 ∧ a1 ≤ s.width + 1 ∧
        vertical k s =
          .next { s.setCur (fill s.cur s.a0 a1 s.color) with color := invert s.color, a0 := a1 } := by
  unfold vertical
  by_cases h : (s.width : Int) + 1 < (s.b1 : Int) + k ∨ (s.b1 : Int) + k ≤ s.a0
  · exact .inl ⟨h, if_pos h⟩
  · refine .inr ⟨((s.b1 : Int) + k).toNat, ?_, ?_, ?_, if_neg h⟩ <;> omega

theorem vertical_moves {a1 : Nat} {s : State} (h1 : s.a0 < a1) (h2 : a1 ≤ s.width + 1) :
    Moves s { s.setCur (fill s.cur s.a0 a1 s.color) with color := invert s.color, a0 := a1 } where
  eq := ⟨_, rfl⟩
  length := by show (State.cur (s.setCur _)).length = _; simp
  before := fun p hp => by show cell (State.cur (s.setCur _)) p = _; rw [State.setCur_cur, cell_fill_before _ _ hp]
  first := fun h0 hc => by
    show cell (State.cur (s.setCur _)) 0 = _
    rw [State.setCur_cur, cell_fill]
    split
    · exact hc (by omega)
    · exact h0
  grow := fun _ => le_of_lt h1
  bound := fun _ => h2
  start := fun _ h0 => by simp at h0; omega

/-- What a run code does when it answers a next state. -/
theorem runCode_next {table : Option Colour} {v : Nat} {s t : State} (h : runCode table v s = .next t) :
    Moves s t ∨ raiseError .outOfBounds s = .next t := by
  unfold runCode at h
  cases hp : s.phase with
  | mode => simp [hp] at h
  | run1 tot =>
    simp only [hp] at h
    split at h
    · split at h <;> (simp only [Host.Outcome.next.injEq] at h; exact .inl (h ▸ Moves.phase _))
    · cases h
  | run2 r1 tot =>
    simp only [hp] at h
    split at h
    · split at h
      · rcases horizontal_cases r1 (tot + v) s with ⟨hb, he⟩ | ⟨hb, he⟩
        · exact .inr (he ▸ h)
        · rw [he, Host.Outcome.next.injEq] at h
          exact .inl (h ▸ horizontal_moves hb)
      · simp only [Host.Outcome.next.injEq] at h
        exact .inl (h ▸ Moves.phase _)
    · cases h

/-- The meaning of every row of a run table: the shared operation on its value, in the table of its colour alone
but for the extended make-up codes (41_runlength.md rules R120 to R125). -/
theorem exec_runRow (c : Colour) :
    ∀ r ∈ runRows c, ∃ table, (table = none ∨ table = some c) ∧ (r.value < 1792 → table = some c) ∧
      ∀ s, exec r.instr s = runCode table r.value s := by
  have white : ∀ r ∈ whiteTerminating ++ whiteMakeUp, ∀ s, exec r.instr s = runCode (some .white) r.value s := by
    simp only [whiteTerminating, whiteMakeUp, List.cons_append, List.nil_append, List.forall_mem_cons]
    and_intros
    all_goals first | (intro _; rfl) | simp
  have black : ∀ r ∈ blackTerminating ++ blackMakeUp, ∀ s, exec r.instr s = runCode (some .black) r.value s := by
    simp only [blackTerminating, blackMakeUp, List.cons_append, List.nil_append, List.forall_mem_cons]
    and_intros
    all_goals first | (intro _; rfl) | simp
  have both : ∀ r ∈ extendedMakeUp, 1792 ≤ r.value ∧ ∀ s, exec r.instr s = runCode none r.value s := by
    simp only [extendedMakeUp, List.forall_mem_cons]
    and_intros
    all_goals first | (intro _; rfl) | decide | simp
  intro r hr
  cases c <;> rcases List.mem_append.1 hr with h | h
  · exact ⟨_, .inr rfl, fun _ => rfl, white r h⟩
  · exact ⟨_, .inl rfl, fun h' => by have := (both r h).1; omega, (both r h).2⟩
  · exact ⟨_, .inr rfl, fun _ => rfl, black r h⟩
  · exact ⟨_, .inl rfl, fun h' => by have := (both r h).1; omega, (both r h).2⟩

/-- What the meaning of a code word does when it answers a next state: the job goes on, or it ends with an error
or with success. -/
theorem exec_next {i : Instr} {s t : State} (h : exec i s = .next t) :
    Moves s t ∨ (∃ e, raiseError e s = .next t) ∨ finishDecode s = .next t := by
  rcases exec_forms i s with hi | hi | ⟨k, hi⟩ | hi | hi | ⟨table, v, hi⟩ <;> rw [hi] at h
  · rw [execP_cases, Host.Outcome.next.injEq] at h
    exact .inl (h ▸ execP_moves s)
  · simp only [execH, Host.Outcome.next.injEq] at h
    exact .inl (h ▸ Moves.phase _)
  · rcases vertical_cases k s with ⟨-, he⟩ | ⟨a1, -, h1, h2, he⟩
    · exact .inr (.inl ⟨_, he ▸ h⟩)
    · rw [he, Host.Outcome.next.injEq] at h
      exact .inl (h ▸ vertical_moves h1 h2)
  · exact .inr (.inl ⟨_, h⟩)
  · exact .inr (.inr h)
  · exact (runCode_next h).imp id fun h => .inl ⟨_, h⟩

/-- What no meaning writes: the state but for the fields of the current line, of the packer, and `STATUS`. -/
theorem exec_keeps {i : Instr} {s t : State} (h : exec i s = .next t) :
    ∃ l, t = { s.setCur l with
      a0 := t.a0, color := t.color, phase := t.phase, status := t.status
      acc := t.acc, outMem := t.outMem, outLen := t.outLen } := by
  have same := s.setCur_self
  rcases exec_next h with hm | ⟨e, he⟩ | hf
  · obtain ⟨l, hl⟩ := hm.eq
    refine ⟨l, ?_⟩
    rw [hl]
  · obtain ⟨u, hu, -, rfl⟩ := raiseError_next he
    refine ⟨s.cur, ?_⟩
    rw [same, hu.eq]
  · obtain ⟨u, hu, -, rfl⟩ := finishDecode_next hf
    refine ⟨s.cur, ?_⟩
    rw [same, hu.eq]

/-- No meaning answers a fault. -/
theorem exec_not_fault (i : Instr) (s : State) (f : Fault) : exec i s ≠ .fault f := by
  rcases exec_forms i s with hi | hi | ⟨k, hi⟩ | hi | hi | ⟨table, v, hi⟩ <;> rw [hi]
  · rw [execP_cases]; simp
  · simp [execH]
  · rcases vertical_cases k s with ⟨-, he⟩ | ⟨a1, -, -, -, he⟩ <;> rw [he]
    · exact raiseError_not_fault _ _ _
    · simp
  · exact raiseError_not_fault _ _ _
  · exact finishDecode_not_fault _ _
  · unfold runCode
    split
    · simp
    · split
      · split <;> simp
      · simp
    · split
      · split
        · rename_i r1 tot _ _ _
          rcases horizontal_cases r1 (tot + v) s with ⟨-, he⟩ | ⟨-, he⟩ <;> rw [he]
          · exact raiseError_not_fault _ _ _
          · simp
        · simp
      · simp

end Sys2Proof.Machine
end

