-- ==== Sys2Proof/Laws/Host.lean ====
section
/-! SUPPORT. The laws of the host's accesses: what START, a register access and an access as a whole can do. -/

namespace Sys2Proof.Machine

/-- When START is accepted, and what it does (10_state.md rule R26, 60_exceptions.md rule R212). -/
theorem startJob_next {j : Job} {s t : State} :
    startJob j s = .next t ↔
      s.isBusy = false ∧ 1 ≤ s.width ∧ s.width ≤ s.params.maxWidth ∧ s.inLen ≤ s.params.maxInBytes ∧
        ¬ (j = .encode ∧ s.cfgOrder = true) ∧ t = beginJob j s := by
  unfold startJob
  cases hb : s.isBusy
  · by_cases hw : s.width = 0 ∨ s.params.maxWidth < s.width
    · simp only [hw, Bool.false_eq_true, if_false, if_true, reduceCtorEq, false_iff]
      omega
    · by_cases hi : s.params.maxInBytes < s.inLen
      · simp only [hw, hi, Bool.false_eq_true, if_false, if_true, reduceCtorEq, false_iff]
        omega
      · by_cases ho : j = .encode ∧ s.cfgOrder = true
        · simp [hw, hi, ho]
        · simp only [hw, hi, ho, Bool.false_eq_true, if_false, Host.Outcome.next.injEq, not_false_eq_true,
            true_and]
          constructor
          · rintro rfl; exact ⟨by omega, by omega, by omega, rfl⟩
          · rintro ⟨-, -, -, rfl⟩; rfl
  · simp

/-- What a write of a register does when it answers a next state: nothing, a configuration register with no job
running, or an accepted START (10_state.md section 2). -/
theorem hostWriteReg_next {no : Nat} {v : Reg} {s t : State} (h : hostWriteReg no v s = .next t) :
    t = s ∨ (s.isBusy = false ∧ ((t = { s with cfgWidth := v }) ∨ (t = { s with cfgMode := v &&& 3 }) ∨
        (t = { s with cfgSkipLead := v }) ∨ (t = { s with cfgSkipTail := v }) ∨
        (t = { s with cfgInLen := v }))) ∨ ∃ j, startJob j s = .next t := by
  have cfg : ∀ u, configWrite s u = .next t → s.isBusy = false ∧ t = u := by
    intro u hu
    unfold configWrite at hu
    cases hb : s.isBusy <;> simp [hb] at hu
    exact ⟨rfl, hu.symm⟩
  unfold hostWriteReg at h
  split at h
  · obtain ⟨hb, rfl⟩ := cfg _ h; exact .inr (.inl ⟨hb, .inl rfl⟩)
  · obtain ⟨hb, rfl⟩ := cfg _ h; exact .inr (.inl ⟨hb, .inr (.inl rfl)⟩)
  · obtain ⟨hb, rfl⟩ := cfg _ h; exact .inr (.inl ⟨hb, .inr (.inr (.inl rfl))⟩)
  · obtain ⟨hb, rfl⟩ := cfg _ h; exact .inr (.inl ⟨hb, .inr (.inr (.inr (.inl rfl)))⟩)
  · obtain ⟨hb, rfl⟩ := cfg _ h; exact .inr (.inl ⟨hb, .inr (.inr (.inr (.inr rfl)))⟩)
  · split at h
    · simp only [Host.Outcome.next.injEq] at h; exact .inl h.symm
    · exact .inr (.inr ⟨_, h⟩)
    · exact .inr (.inr ⟨_, h⟩)
    · cases h
  · simp only [Host.Outcome.next.injEq] at h; exact .inl h.symm
  · simp only [Host.Outcome.next.injEq] at h; exact .inl h.symm
  · simp only [Host.Outcome.next.injEq] at h; exact .inl h.symm
  · cases h

/-- A read changes only what the host has read, and the counter of the free values. -/
abbrev OnlyRead (s t : State) : Prop := t = { s with hostData := t.hostData, fresh := t.fresh }

theorem hostReadReg_next {no : Nat} {s t : State} (h : hostReadReg no s = .next t) : OnlyRead s t := by
  have when' : ∀ ok v, readWhen ok v s = .next t → OnlyRead s t := by
    intro ok v hr
    unfold readWhen at hr
    cases ok <;> simp at hr
    subst hr; rfl
  have count : ∀ n, readCount n s = .next t → OnlyRead s t := by
    intro n hr
    unfold readCount at hr
    split at hr
    · cases hr
    · split at hr <;> (simp only [Host.Outcome.next.injEq] at hr; subst hr; rfl)
  unfold hostReadReg at h
  split at h <;> first | exact when' _ _ h | exact count _ h | cases h

theorem hostReadOut_next {a : Nat} {s t : State} (h : hostReadOut a s = .next t) : OnlyRead s t := by
  unfold hostReadOut at h
  split at h
  · cases h
  · split at h
    · cases h
    · split at h <;> (simp only [Host.Outcome.next.injEq] at h; subst h; rfl)

theorem hostReadCa_next {k : Nat} {s t : State} (h : hostReadCa k s = .next t) : OnlyRead s t := by
  unfold hostReadCa at h
  split at h
  · cases h
  · split at h
    · cases h
    · split at h <;> (simp only [Host.Outcome.next.injEq] at h; subst h; rfl)

theorem hostWriteIn_next {a : Nat} {v : Byte} {s t : State} (h : hostWriteIn a v s = .next t) :
    s.isBusy = false ∧ t = { s with inMem := Memory.write s.inMem a v } := by
  unfold hostWriteIn at h
  cases hb : s.isBusy <;> simp only [hb, Bool.false_eq_true, if_true, if_false, reduceCtorEq] at h
  split at h
  · exact ⟨rfl, by simpa using h.symm⟩
  · cases h

/-- What an access does when it answers a next state: nothing, a read, a configuration write or a write of `IN`
with no job running, an accepted START, or a reset. -/
theorem hostStep_next {op : HostOp} {s t : State} (h : hostStep op s = .next t) :
    OnlyRead s t ∨
      (s.isBusy = false ∧ ((∃ v, t = { s with cfgWidth := v }) ∨ (∃ v, t = { s with cfgMode := v &&& 3 }) ∨
        (∃ v, t = { s with cfgSkipLead := v }) ∨ (∃ v, t = { s with cfgSkipTail := v }) ∨
        (∃ v, t = { s with cfgInLen := v }) ∨ ∃ a v, t = { s with inMem := Memory.write s.inMem a v })) ∨
      (∃ j, startJob j s = .next t) ∨ t = hostReset s := by
  cases op with
  | wait => simp only [hostStep, Host.Outcome.next.injEq] at h; subst h; exact .inl rfl
  | writeReg no v =>
    rcases hostWriteReg_next h with rfl | ⟨hb, h | h | h | h | h⟩ | ⟨j, h⟩
    · exact .inl rfl
    · exact .inr (.inl ⟨hb, .inl ⟨v, h⟩⟩)
    · exact .inr (.inl ⟨hb, .inr (.inl ⟨v, h⟩)⟩)
    · exact .inr (.inl ⟨hb, .inr (.inr (.inl ⟨v, h⟩))⟩)
    · exact .inr (.inl ⟨hb, .inr (.inr (.inr (.inl ⟨v, h⟩)))⟩)
    · exact .inr (.inl ⟨hb, .inr (.inr (.inr (.inr (.inl ⟨v, h⟩))))⟩)
    · exact .inr (.inr (.inl ⟨j, h⟩))
  | readReg no => exact .inl (hostReadReg_next h)
  | writeIn a v =>
    obtain ⟨hb, ht⟩ := hostWriteIn_next h
    exact .inr (.inl ⟨hb, .inr (.inr (.inr (.inr (.inr ⟨a, v, ht⟩))))⟩)
  | writeOut a v => cases h
  | readOut a => exact .inl (hostReadOut_next h)
  | readCa k => exact .inl (hostReadCa_next h)
  | reset => simp only [hostStep, Host.Outcome.next.injEq] at h; exact .inr (.inr (.inr h.symm))

end Sys2Proof.Machine
end

