-- ==== Sys2Proof/Laws/Step.lean ====
section
/-! SUPPORT. The decode step unfolded once: the next code word is decoded from the stream, its meaning runs, and
the step goes on as `afterCode` says; the guard of the loop is never reached. -/

namespace Sys2Proof.Machine

theorem exec_pos {i : Instr} {s t : State} (h : exec i s = .next t) :
    t.pos = s.pos ∧ t.cfgInLen = s.cfgInLen ∧ t.bitsLeft = s.bitsLeft := by
  obtain ⟨l, hl⟩ := exec_keeps h
  have h1 : t.pos = s.pos := by rw [hl]; rfl
  have h2 : t.cfgInLen = s.cfgInLen := by rw [hl]; rfl
  exact ⟨h1, h2, by simp only [State.bitsLeft, State.inLen, h1, h2]⟩

/-- The loop does not depend on its guard once that is above the number of bits left. -/
theorem decodeLoop_guard {n m : Nat} {s : State} (hn : s.bitsLeft < n) (hm : s.bitsLeft < m) :
    decodeLoop n s = decodeLoop m s := by
  induction n generalizing s m with
  | zero => omega
  | succ n ih =>
    cases m with
    | zero => omega
    | succ m =>
      simp only [decodeLoop]
      rcases readWord_cases s with ⟨i, rest, hd, hw⟩ | ⟨e, rest, hw⟩
      · have hlt := State.readTo_bitsLeft hd
        simp only [hw]
        cases hx : exec i (s.readTo rest) with
        | fault f => rfl
        | refused r => rfl
        | next u =>
          have hu := (exec_pos hx).2.2
          simp only
          rw [ih (s := u) (m := m) (by omega) (by omega)]
      · rw [hw]

theorem decodeLoop_eq_step {n : Nat} {s : State} (hn : s.bitsLeft < n) : decodeLoop n s = decodeStep s :=
  decodeLoop_guard hn (Nat.lt_succ_self _)

/-- One decode step: the next code word, its meaning, and what follows. -/
theorem decodeStep_eq (s : State) :
    decodeStep s =
      match decode s.context s.stream with
      | .word i rest => afterCode (exec i (s.readTo rest))
      | .dead e rest => raiseError e (s.readTo rest)
      | .short => raiseError .endOfStream (s.readTo []) := by
  show decodeLoop (s.bitsLeft + 1) s = _
  simp only [decodeLoop]
  cases hd : decode s.context s.stream with
  | dead e rest => rw [readWord_dead hd]
  | short => rw [readWord_short hd]
  | word i rest =>
    have hlt := State.readTo_bitsLeft hd
    simp only [readWord_word hd]
    cases hx : exec i (s.readTo rest) with
    | fault f => rfl
    | refused r => rfl
    | next u =>
      have hu := (exec_pos hx).2.2
      simp only [afterCode]
      rw [decodeLoop_eq_step (by omega)]

/-- To prove something of a decode step that answers a next state: of the errors of reading, of the states in
which the step stops after a code word, and of a step that goes on with an open Horizontal pair. -/
theorem decodeStep_induct {P : State → State → Prop}
    (raised : ∀ s e rest t, rest <:+ s.stream → raiseError e (s.readTo rest) = .next t → P s t)
    (stop : ∀ s i rest u t, decode s.context s.stream = .word i rest → exec i (s.readTo rest) = .next u →
      ((u.status ≠ .busy .decode ∧ t = u) ∨
        (u.status = .busy .decode ∧ u.phase = .mode ∧ u.width < u.a0 ∧ lineComplete u = .next t) ∨
        (u.status = .busy .decode ∧ u.phase = .mode ∧ u.a0 ≤ u.width ∧ t = u)) → P s t)
    (pair : ∀ s i rest u t, decode s.context s.stream = .word i rest → exec i (s.readTo rest) = .next u →
      u.status = .busy .decode → u.phase ≠ .mode → decodeStep u = .next t → P u t → P s t)
    {s t : State} (h : decodeStep s = .next t) : P s t := by
  obtain ⟨n, hn⟩ : ∃ n, s.bitsLeft = n := ⟨_, rfl⟩
  induction n using Nat.strong_induction_on generalizing s t with
  | _ n ih =>
    have h0 := h
    rw [decodeStep_eq] at h
    cases hd : decode s.context s.stream with
    | dead e rest => rw [hd] at h; exact raised s e rest t (scan_suffix.2 e rest hd) h
    | short => rw [hd] at h; exact raised s _ [] t (List.nil_suffix) h
    | word i rest =>
      rw [hd] at h
      simp only at h
      cases hx : exec i (s.readTo rest) with
      | fault f => rw [hx] at h; cases h
      | refused r => rw [hx] at h; cases h
      | next u =>
        rw [hx] at h
        simp only [afterCode] at h
        have hlt := State.readTo_bitsLeft hd
        have hu := (exec_pos hx).2.2
        split at h
        · rename_i hs
          exact stop s i rest u t hd hx (.inl ⟨hs, by simpa using h.symm⟩)
        · rename_i hs
          have hs : u.status = .busy .decode := not_not.1 hs
          split at h
          · rename_i hp
            exact pair s i rest u t hd hx hs hp h (ih _ (by omega) h rfl)
          · rename_i hp
            have hp : u.phase = .mode := not_not.1 hp
            split at h
            · rename_i hw
              exact stop s i rest u t hd hx (.inr (.inl ⟨hs, hp, hw, h⟩))
            · rename_i hw
              exact stop s i rest u t hd hx (.inr (.inr ⟨hs, hp, by omega, by simpa using h.symm⟩))

/-- No decode step answers a fault: the guard of the loop is never reached (43_mode_decoder.md rule R156). -/
theorem decodeStep_not_fault (s : State) (f : Fault) : decodeStep s ≠ .fault f := by
  obtain ⟨n, hn⟩ : ∃ n, s.bitsLeft = n := ⟨_, rfl⟩
  induction n using Nat.strong_induction_on generalizing s with
  | _ n ih =>
    rw [decodeStep_eq]
    cases hd : decode s.context s.stream with
    | dead e rest => exact raiseError_not_fault _ _ _
    | short => exact raiseError_not_fault _ _ _
    | word i rest =>
      simp only
      cases hx : exec i (s.readTo rest) with
      | fault g => exact absurd hx (exec_not_fault _ _ _)
      | refused r => simp [afterCode]
      | next u =>
        have hlt := State.readTo_bitsLeft hd
        have hu := (exec_pos hx).2.2
        simp only [afterCode]
        split
        · simp
        · split
          · exact ih _ (by omega) u rfl
          · split
            · unfold lineComplete orOverflow; split <;> simp
            · simp

end Sys2Proof.Machine
end

