-- ==== Sys2Proof/Laws/Store.lean ====
section
/-! SUPPORT. The laws of the Scanline Store (42_store.md): what pushing a line and completing a line can do. -/

namespace Sys2Proof.Machine

/-- What appending to the colour array does: it needs room. -/
theorem State.appendCa_some {s t : State} {row : List Colour} :
    s.appendCa row = some t ↔
      s.ca.length + row.length ≤ s.params.maxOutBytes ∧ t = { s with ca := s.ca ++ row } := by
  unfold State.appendCa
  split
  · rename_i h; simp [h, eq_comm]
  · rename_i h; simp [h]

/-- What Push does: the line joins the store, and the colour array or the packed bitmap (42_store.md rule R143). -/
theorem State.push_some {s t : State} {row : List Colour} :
    s.push row = some t ↔
      (s.colourStore = true ∧ s.ca.length + row.length ≤ s.params.maxOutBytes ∧
        t = { s with store := s.store ++ [row], lines := s.lines + 1, ca := s.ca ++ row }) ∨
      (s.colourStore = false ∧
        State.writeBits { s with store := s.store ++ [row], lines := s.lines + 1 }
          (row.map (colourBit s.params.blackBit)) = some t) := by
  unfold State.push
  cases h : s.colourStore <;> simp [State.appendCa_some]

/-- What completing a line does when it answers a next state (43_mode_decoder.md rule R170): the line is pushed
and the buffers swap roles. The frame is that of the packer, in the state with the line counted. -/
theorem lineComplete_next {s t : State} (h : lineComplete s = .next t) :
    ∃ u, s.push (scanline s.width s.cur) = some u ∧
      t = { u with sel := !s.sel, a0 := 0, color := .white } ∧
      PackerFrame { s with store := s.store ++ [scanline s.width s.cur], lines := s.lines + 1, ca := u.ca } u ∧
      (s.ca.length ≤ s.params.maxOutBytes → u.ca.length ≤ s.params.maxOutBytes) := by
  obtain ⟨u, hu, ht⟩ := orOverflow_next.1 h
  refine ⟨u, hu, ?_⟩
  rcases State.push_some.1 hu with ⟨-, hfit, rfl⟩ | ⟨-, hw⟩
  · refine ⟨by simpa using ht.symm, PackerFrame.refl _, fun _ => ?_⟩
    simpa using hfit
  · have hf := State.writeBits_frame hw
    have hca : u.ca = s.ca := by rw [hf.eq]
    have hsel : u.sel = s.sel := by rw [hf.eq]
    refine ⟨by rw [← hsel]; simpa using ht.symm, ?_, fun hc => by rw [hca]; exact hc⟩
    rw [hca]
    exact hf

/-- Completing a line is refused only without room for its output, and answers no fault. -/
theorem lineComplete_cases (s : State) :
    (∃ t, lineComplete s = .next t) ∨ lineComplete s = .refused .outputOverflow := by
  unfold lineComplete orOverflow
  split
  · exact .inl ⟨_, rfl⟩
  · exact .inr rfl

end Sys2Proof.Machine
end

