-- ==== Sys2Proof/Laws/Whole.lean ====
section
/-! SUPPORT. What a step of the whole machine can do: the core's step or one access of the host. -/

namespace Sys2Proof.Machine

/-- What the core's step does when it answers a next state. -/
theorem coreStep_next {s t : State} (h : coreStep s = .next t) :
    (s.status = .busy .decode ∧ decodeStep s = .next t) ∨ (s.status = .busy .encode ∧ encodeStep s = .next t) ∨
      (s.isBusy = false ∧ t = s) := by
  unfold coreStep at h
  cases hs : s.status with
  | busy j =>
    rw [hs] at h
    cases j
    · exact .inl ⟨rfl, h⟩
    · exact .inr (.inl ⟨rfl, h⟩)
  | idle =>
    rw [hs, Host.Outcome.next.injEq] at h
    exact .inr (.inr ⟨by rw [State.isBusy, hs], h.symm⟩)
  | done =>
    rw [hs, Host.Outcome.next.injEq] at h
    exact .inr (.inr ⟨by rw [State.isBusy, hs], h.symm⟩)
  | error e =>
    rw [hs, Host.Outcome.next.injEq] at h
    exact .inr (.inr ⟨by rw [State.isBusy, hs], h.symm⟩)

/-- What a step does when it answers a next state: the core's step, with no access pending or with a `wait` taken,
or one access of the host. -/
theorem step_next {s t : State} (h : step s = .next t) :
    (∃ ops, (s.hostOps = [] ∧ ops = [] ∨ s.hostOps = .wait :: ops) ∧
        coreStep { s with hostOps := ops } = .next t) ∨
      ∃ op ops, op ≠ .wait ∧ s.hostOps = op :: ops ∧ hostStep op { s with hostOps := ops } = .next t := by
  unfold step at h
  split at h
  · rename_i hs
    refine .inl ⟨[], .inl ⟨hs, rfl⟩, ?_⟩
    rw [← hs]
    exact h
  · rename_i ops hs
    exact .inl ⟨ops, .inr hs, h⟩
  · rename_i op ops hne hs
    exact .inr ⟨op, ops, hne, hs, h⟩

end Sys2Proof.Machine
end

