-- ==== Sys2Proof/Tests/Slice0.lean ====
section
/-! SUPPORT. The model's own tests: ill-formed terms refused, code words written out from the spec's tables, the
vectors of 95_test_vectors.md as single steps, and a witness for the hypotheses of every statement. -/

namespace Sys2Proof.Tests

open Sys2Proof.Machine

set_option Elab.async false

/-! ## Helpers -/

/-- A bit string written out as digits. -/
abbrev bs (l : List Nat) : List Bool := l.map (· == 1)

/-- A line buffer: cell 0 White, then the pixels, 1 for Black. -/
def line (l : List Nat) : List Colour := .white :: l.map fun x => if x = 1 then .black else .white

/-- A width of eight, a reference line, a current line, a position and colour, and the bits the decoder is
presented with; they end at the end of the input. -/
def at8 (ref cur : List Nat) (a0 : Nat) (c : Colour) (bits : List Nat) : State :=
  let n := (bits.length + 7) / 8
  let gap := 8 * n - bits.length
  { State.reset with
    cfgWidth := 8
    cfgInLen := BitVec.ofNat 32 n
    inMem := writeAll [] 0 (packBytes (List.replicate gap false ++ bs bits) n)
    pos := gap
    status := .busy .decode
    buf0 := line ref
    buf1 := line cur
    a0 := a0
    color := c }

/-- The all-White reference line of eight pixels. -/
abbrev white8 : List Nat := [0, 0, 0, 0, 0, 0, 0, 0]

/-- A state about to encode its first line, of eight pixels, under a given reference line. -/
def encode8 (ref : List Nat) (v : Byte) : State :=
  { State.reset with
    cfgWidth := 8
    cfgInLen := 1
    inMem := writeAll [] 0 [v]
    status := .busy .encode
    buf0 := line ref
    buf1 := line white8 }

/-- Whether an outcome is a next state with a property. -/
def holds (r : Result) (P : State → Bool) : Bool :=
  match r with
  | .next t => P t
  | _ => false

/-- Whether an outcome is this refusal. -/
def refuses (r : Result) (why : Refusal) : Bool :=
  match r with
  | .refused w => w = why
  | _ => false

/-- Whether an outcome is this fault. -/
def faults (r : Result) (why : Fault) : Bool :=
  match r with
  | .fault w => w = why
  | _ => false

theorem of_holds {r : Result} (P : State → Bool) (h : holds r P = true) : ∃ t, r = .next t ∧ P t = true := by
  cases r with
  | next t => exact ⟨t, rfl, h⟩
  | fault f => cases h
  | refused w => cases h

/-- The step goes on within the line: `a0`, `color`, the bits read, and the pixels decoded so far. -/
def goesOn (s : State) (a0 : Nat) (c : Colour) (read : Nat) (pixels : List Nat) : Bool :=
  holds (step s) fun t =>
    t.status = s.status ∧ t.a0 = a0 ∧ t.color = c ∧ t.pos = s.pos + read ∧ t.store = [] ∧
      t.cur.take a0 = (line pixels).take a0 ∧ t.ref = s.ref

/-- The step completes the line: the line pushed, and the bits read. -/
def completes (s : State) (read : Nat) (pixels : List Nat) : Bool :=
  holds (step s) fun t =>
    t.status = s.status ∧ t.a0 = 0 ∧ t.color = .white ∧ t.pos = s.pos + read ∧ t.lines = s.lines + 1 ∧
      t.store = s.store ++ [(line pixels).tail] ∧ t.ref = line pixels ∧ t.cur = s.ref

/-- The step ends the job, with no line pushed. -/
def ends (s : State) (read : Nat) (st : Status) : Bool :=
  holds (step s) fun t => t.status = st ∧ t.pos = s.pos + read ∧ t.store = [] ∧ t.lines = 0

/-- Every bit string decodes to its code word, in full. -/
def reads (ctx : Context) (l : List (List Bool × Instr)) : Bool :=
  l.all fun x => decode ctx x.1 = .word x.2 []

/-! ## Ill-formed terms -/

/-- A run code is no mode code, and a mode code no run code (30_encoding.md rule R80). -/
theorem test_wellFormed_mode :
    Instr.wellFormedIn .wt3 .mode = false ∧ Instr.wellFormedIn .xm1792 .mode = false ∧
      Instr.wellFormedIn .p (.run .white) = false ∧ Instr.wellFormedIn .eofb (.run .black) = false := by
  decide +kernel

/-- A run code of one colour is none of the other's (41_runlength.md rule R120). -/
theorem test_wellFormed_run :
    Instr.wellFormedIn .bt0 (.run .white) = false ∧ Instr.wellFormedIn .bm64 (.run .white) = false ∧
      Instr.wellFormedIn .wt0 (.run .black) = false ∧ Instr.wellFormedIn .wm64 (.run .black) = false := by
  decide +kernel

/-! ## Code words written out from the spec's tables -/

/-- 30_encoding.md rule R81. -/
theorem test_decode_modes :
    reads .mode [
    (bs [0, 0, 0, 1], .p),
    (bs [0, 0, 1], .h),
    (bs [1], .v0),
    (bs [0, 1, 1], .vr1),
    (bs [0, 0, 0, 0, 1, 1], .vr2),
    (bs [0, 0, 0, 0, 0, 1, 1], .vr3),
    (bs [0, 1, 0], .vl1),
    (bs [0, 0, 0, 0, 1, 0], .vl2),
    (bs [0, 0, 0, 0, 0, 1, 0], .vl3),
    (bs [0, 0, 0, 0, 0, 0, 1], .ext2d),
    (bs [0, 0, 0, 0, 0, 0, 0, 0, 1], .ext1d),
    (bs [0, 0, 0, 0, 0, 0, 0, 0, 0, 0, 0, 1, 0, 0, 0, 0, 0, 0, 0, 0, 0, 0, 0, 1], .eofb)] = true := by
  decide +kernel

/-- 41_runlength.md rule R121. -/
theorem test_decode_white_terminating_0 :
    reads (.run .white) [
    (bs [0, 0, 1, 1, 0, 1, 0, 1], .wt0),
    (bs [0, 0, 0, 1, 1, 1], .wt1),
    (bs [0, 1, 1, 1], .wt2),
    (bs [1, 0, 0, 0], .wt3),
    (bs [1, 0, 1, 1], .wt4),
    (bs [1, 1, 0, 0], .wt5),
    (bs [1, 1, 1, 0], .wt6),
    (bs [1, 1, 1, 1], .wt7),
    (bs [1, 0, 0, 1, 1], .wt8),
    (bs [1, 0, 1, 0, 0], .wt9),
    (bs [0, 0, 1, 1, 1], .wt10),
    (bs [0, 1, 0, 0, 0], .wt11),
    (bs [0, 0, 1, 0, 0, 0], .wt12),
    (bs [0, 0, 0, 0, 1, 1], .wt13),
    (bs [1, 1, 0, 1, 0, 0], .wt14),
    (bs [1, 1, 0, 1, 0, 1], .wt15),
    (bs [1, 0, 1, 0, 1, 0], .wt16),
    (bs [1, 0, 1, 0, 1, 1], .wt17),
    (bs [0, 1, 0, 0, 1, 1, 1], .wt18),
    (bs [0, 0, 0, 1, 1, 0, 0], .wt19),
    (bs [0, 0, 0, 1, 0, 0, 0], .wt20),
    (bs [0, 0, 1, 0, 1, 1, 1], .wt21),
    (bs [0, 0, 0, 0, 0, 1, 1], .wt22),
    (bs [0, 0, 0, 0, 1, 0, 0], .wt23),
    (bs [0, 1, 0, 1, 0, 0, 0], .wt24),
    (bs [0, 1, 0, 1, 0, 1, 1], .wt25),
    (bs [0, 0, 1, 0, 0, 1, 1], .wt26),
    (bs [0, 1, 0, 0, 1, 0, 0], .wt27),
    (bs [0, 0, 1, 1, 0, 0, 0], .wt28),
    (bs [0, 0, 0, 0, 0, 0, 1, 0], .wt29),
    (bs [0, 0, 0, 0, 0, 0, 1, 1], .wt30),
    (bs [0, 0, 0, 1, 1, 0, 1, 0], .wt31)] = true := by decide +kernel

/-- 41_runlength.md rule R121. -/
theorem test_decode_white_terminating_1 :
    reads (.run .white) [
    (bs [0, 0, 0, 1, 1, 0, 1, 1], .wt32),
    (bs [0, 0, 0, 1, 0, 0, 1, 0], .wt33),
    (bs [0, 0, 0, 1, 0, 0, 1, 1], .wt34),
    (bs [0, 0, 0, 1, 0, 1, 0, 0], .wt35),
    (bs [0, 0, 0, 1, 0, 1, 0, 1], .wt36),
    (bs [0, 0, 0, 1, 0, 1, 1, 0], .wt37),
    (bs [0, 0, 0, 1, 0, 1, 1, 1], .wt38),
    (bs [0, 0, 1, 0, 1, 0, 0, 0], .wt39),
    (bs [0, 0, 1, 0, 1, 0, 0, 1], .wt40),
    (bs [0, 0, 1, 0, 1, 0, 1, 0], .wt41),
    (bs [0, 0, 1, 0, 1, 0, 1, 1], .wt42),
    (bs [0, 0, 1, 0, 1, 1, 0, 0], .wt43),
    (bs [0, 0, 1, 0, 1, 1, 0, 1], .wt44),
    (bs [0, 0, 0, 0, 0, 1, 0, 0], .wt45),
    (bs [0, 0, 0, 0, 0, 1, 0, 1], .wt46),
    (bs [0, 0, 0, 0, 1, 0, 1, 0], .wt47),
    (bs [0, 0, 0, 0, 1, 0, 1, 1], .wt48),
    (bs [0, 1, 0, 1, 0, 0, 1, 0], .wt49),
    (bs [0, 1, 0, 1, 0, 0, 1, 1], .wt50),
    (bs [0, 1, 0, 1, 0, 1, 0, 0], .wt51),
    (bs [0, 1, 0, 1, 0, 1, 0, 1], .wt52),
    (bs [0, 0, 1, 0, 0, 1, 0, 0], .wt53),
    (bs [0, 0, 1, 0, 0, 1, 0, 1], .wt54),
    (bs [0, 1, 0, 1, 1, 0, 0, 0], .wt55),
    (bs [0, 1, 0, 1, 1, 0, 0, 1], .wt56),
    (bs [0, 1, 0, 1, 1, 0, 1, 0], .wt57),
    (bs [0, 1, 0, 1, 1, 0, 1, 1], .wt58),
    (bs [0, 1, 0, 0, 1, 0, 1, 0], .wt59),
    (bs [0, 1, 0, 0, 1, 0, 1, 1], .wt60),
    (bs [0, 0, 1, 1, 0, 0, 1, 0], .wt61),
    (bs [0, 0, 1, 1, 0, 0, 1, 1], .wt62),
    (bs [0, 0, 1, 1, 0, 1, 0, 0], .wt63)] = true := by decide +kernel

/-- 41_runlength.md rule R122. -/
theorem test_decode_white_make_up_0 :
    reads (.run .white) [
    (bs [1, 1, 0, 1, 1], .wm64),
    (bs [1, 0, 0, 1, 0], .wm128),
    (bs [0, 1, 0, 1, 1, 1], .wm192),
    (bs [0, 1, 1, 0, 1, 1, 1], .wm256),
    (bs [0, 0, 1, 1, 0, 1, 1, 0], .wm320),
    (bs [0, 0, 1, 1, 0, 1, 1, 1], .wm384),
    (bs [0, 1, 1, 0, 0, 1, 0, 0], .wm448),
    (bs [0, 1, 1, 0, 0, 1, 0, 1], .wm512),
    (bs [0, 1, 1, 0, 1, 0, 0, 0], .wm576),
    (bs [0, 1, 1, 0, 0, 1, 1, 1], .wm640),
    (bs [0, 1, 1, 0, 0, 1, 1, 0, 0], .wm704),
    (bs [0, 1, 1, 0, 0, 1, 1, 0, 1], .wm768),
    (bs [0, 1, 1, 0, 1, 0, 0, 1, 0], .wm832),
    (bs [0, 1, 1, 0, 1, 0, 0, 1, 1], .wm896),
    (bs [0, 1, 1, 0, 1, 0, 1, 0, 0], .wm960),
    (bs [0, 1, 1, 0, 1, 0, 1, 0, 1], .wm1024),
    (bs [0, 1, 1, 0, 1, 0, 1, 1, 0], .wm1088),
    (bs [0, 1, 1, 0, 1, 0, 1, 1, 1], .wm1152),
    (bs [0, 1, 1, 0, 1, 1, 0, 0, 0], .wm1216),
    (bs [0, 1, 1, 0, 1, 1, 0, 0, 1], .wm1280),
    (bs [0, 1, 1, 0, 1, 1, 0, 1, 0], .wm1344),
    (bs [0, 1, 1, 0, 1, 1, 0, 1, 1], .wm1408),
    (bs [0, 1, 0, 0, 1, 1, 0, 0, 0], .wm1472),
    (bs [0, 1, 0, 0, 1, 1, 0, 0, 1], .wm1536),
    (bs [0, 1, 0, 0, 1, 1, 0, 1, 0], .wm1600),
    (bs [0, 1, 1, 0, 0, 0], .wm1664),
    (bs [0, 1, 0, 0, 1, 1, 0, 1, 1], .wm1728)] = true := by decide +kernel

/-- 41_runlength.md rule R123. -/
theorem test_decode_black_terminating_0 :
    reads (.run .black) [
    (bs [0, 0, 0, 0, 1, 1, 0, 1, 1, 1], .bt0),
    (bs [0, 1, 0], .bt1),
    (bs [1, 1], .bt2),
    (bs [1, 0], .bt3),
    (bs [0, 1, 1], .bt4),
    (bs [0, 0, 1, 1], .bt5),
    (bs [0, 0, 1, 0], .bt6),
    (bs [0, 0, 0, 1, 1], .bt7),
    (bs [0, 0, 0, 1, 0, 1], .bt8),
    (bs [0, 0, 0, 1, 0, 0], .bt9),
    (bs [0, 0, 0, 0, 1, 0, 0], .bt10),
    (bs [0, 0, 0, 0, 1, 0, 1], .bt11),
    (bs [0, 0, 0, 0, 1, 1, 1], .bt12),
    (bs [0, 0, 0, 0, 0, 1, 0, 0], .bt13),
    (bs [0, 0, 0, 0, 0, 1, 1, 1], .bt14),
    (bs [0, 0, 0, 0, 1, 1, 0, 0, 0], .bt15),
    (bs [0, 0, 0, 0, 0, 1, 0, 1, 1, 1], .bt16),
    (bs [0, 0, 0, 0, 0, 1, 1, 0, 0, 0], .bt17),
    (bs [0, 0, 0, 0, 0, 0, 1, 0, 0, 0], .bt18),
    (bs [0, 0, 0, 0, 1, 1, 0, 0, 1, 1, 1], .bt19),
    (bs [0, 0, 0, 0, 1, 1, 0, 1, 0, 0, 0], .bt20),
    (bs [0, 0, 0, 0, 1, 1, 0, 1, 1, 0, 0], .bt21),
    (bs [0, 0, 0, 0, 0, 1, 1, 0, 1, 1, 1], .bt22),
    (bs [0, 0, 0, 0, 0, 1, 0, 1, 0, 0, 0], .bt23),
    (bs [0, 0, 0, 0, 0, 0, 1, 0, 1, 1, 1], .bt24),
    (bs [0, 0, 0, 0, 0, 0, 1, 1, 0, 0, 0], .bt25),
    (bs [0, 0, 0, 0, 1, 1, 0, 0, 1, 0, 1, 0], .bt26),
    (bs [0, 0, 0, 0, 1, 1, 0, 0, 1, 0, 1, 1], .bt27),
    (bs [0, 0, 0, 0, 1, 1, 0, 0, 1, 1, 0, 0], .bt28),
    (bs [0, 0, 0, 0, 1, 1, 0, 0, 1, 1, 0, 1], .bt29),
    (bs [0, 0, 0, 0, 0, 1, 1, 0, 1, 0, 0, 0], .bt30),
    (bs [0, 0, 0, 0, 0, 1, 1, 0, 1, 0, 0, 1], .bt31)] = true := by decide +kernel

/-- 41_runlength.md rule R123. -/
theorem test_decode_black_terminating_1 :
    reads (.run .black) [
    (bs [0, 0, 0, 0, 0, 1, 1, 0, 1, 0, 1, 0], .bt32),
    (bs [0, 0, 0, 0, 0, 1, 1, 0, 1, 0, 1, 1], .bt33),
    (bs [0, 0, 0, 0, 1, 1, 0, 1, 0, 0, 1, 0], .bt34),
    (bs [0, 0, 0, 0, 1, 1, 0, 1, 0, 0, 1, 1], .bt35),
    (bs [0, 0, 0, 0, 1, 1, 0, 1, 0, 1, 0, 0], .bt36),
    (bs [0, 0, 0, 0, 1, 1, 0, 1, 0, 1, 0, 1], .bt37),
    (bs [0, 0, 0, 0, 1, 1, 0, 1, 0, 1, 1, 0], .bt38),
    (bs [0, 0, 0, 0, 1, 1, 0, 1, 0, 1, 1, 1], .bt39),
    (bs [0, 0, 0, 0, 0, 1, 1, 0, 1, 1, 0, 0], .bt40),
    (bs [0, 0, 0, 0, 0, 1, 1, 0, 1, 1, 0, 1], .bt41),
    (bs [0, 0, 0, 0, 1, 1, 0, 1, 1, 0, 1, 0], .bt42),
    (bs [0, 0, 0, 0, 1, 1, 0, 1, 1, 0, 1, 1], .bt43),
    (bs [0, 0, 0, 0, 0, 1, 0, 1, 0, 1, 0, 0], .bt44),
    (bs [0, 0, 0, 0, 0, 1, 0, 1, 0, 1, 0, 1], .bt45),
    (bs [0, 0, 0, 0, 0, 1, 0, 1, 0, 1, 1, 0], .bt46),
    (bs [0, 0, 0, 0, 0, 1, 0, 1, 0, 1, 1, 1], .bt47),
    (bs [0, 0, 0, 0, 0, 1, 1, 0, 0, 1, 0, 0], .bt48),
    (bs [0, 0, 0, 0, 0, 1, 1, 0, 0, 1, 0, 1], .bt49),
    (bs [0, 0, 0, 0, 0, 1, 0, 1, 0, 0, 1, 0], .bt50),
    (bs [0, 0, 0, 0, 0, 1, 0, 1, 0, 0, 1, 1], .bt51),
    (bs [0, 0, 0, 0, 0, 0, 1, 0, 0, 1, 0, 0], .bt52),
    (bs [0, 0, 0, 0, 0, 0, 1, 1, 0, 1, 1, 1], .bt53),
    (bs [0, 0, 0, 0, 0, 0, 1, 1, 1, 0, 0, 0], .bt54),
    (bs [0, 0, 0, 0, 0, 0, 1, 0, 0, 1, 1, 1], .bt55),
    (bs [0, 0, 0, 0, 0, 0, 1, 0, 1, 0, 0, 0], .bt56),
    (bs [0, 0, 0, 0, 0, 1, 0, 1, 1, 0, 0, 0], .bt57),
    (bs [0, 0, 0, 0, 0, 1, 0, 1, 1, 0, 0, 1], .bt58),
    (bs [0, 0, 0, 0, 0, 0, 1, 0, 1, 0, 1, 1], .bt59),
    (bs [0, 0, 0, 0, 0, 0, 1, 0, 1, 1, 0, 0], .bt60),
    (bs [0, 0, 0, 0, 0, 1, 0, 1, 1, 0, 1, 0], .bt61),
    (bs [0, 0, 0, 0, 0, 1, 1, 0, 0, 1, 1, 0], .bt62),
    (bs [0, 0, 0, 0, 0, 1, 1, 0, 0, 1, 1, 1], .bt63)] = true := by decide +kernel

/-- 41_runlength.md rule R124. -/
theorem test_decode_black_make_up_0 :
    reads (.run .black) [
    (bs [0, 0, 0, 0, 0, 0, 1, 1, 1, 1], .bm64),
    (bs [0, 0, 0, 0, 1, 1, 0, 0, 1, 0, 0, 0], .bm128),
    (bs [0, 0, 0, 0, 1, 1, 0, 0, 1, 0, 0, 1], .bm192),
    (bs [0, 0, 0, 0, 0, 1, 0, 1, 1, 0, 1, 1], .bm256),
    (bs [0, 0, 0, 0, 0, 0, 1, 1, 0, 0, 1, 1], .bm320),
    (bs [0, 0, 0, 0, 0, 0, 1, 1, 0, 1, 0, 0], .bm384),
    (bs [0, 0, 0, 0, 0, 0, 1, 1, 0, 1, 0, 1], .bm448),
    (bs [0, 0, 0, 0, 0, 0, 1, 1, 0, 1, 1, 0, 0], .bm512),
    (bs [0, 0, 0, 0, 0, 0, 1, 1, 0, 1, 1, 0, 1], .bm576),
    (bs [0, 0, 0, 0, 0, 0, 1, 0, 0, 1, 0, 1, 0], .bm640),
    (bs [0, 0, 0, 0, 0, 0, 1, 0, 0, 1, 0, 1, 1], .bm704),
    (bs [0, 0, 0, 0, 0, 0, 1, 0, 0, 1, 1, 0, 0], .bm768),
    (bs [0, 0, 0, 0, 0, 0, 1, 0, 0, 1, 1, 0, 1], .bm832),
    (bs [0, 0, 0, 0, 0, 0, 1, 1, 1, 0, 0, 1, 0], .bm896),
    (bs [0, 0, 0, 0, 0, 0, 1, 1, 1, 0, 0, 1, 1], .bm960),
    (bs [0, 0, 0, 0, 0, 0, 1, 1, 1, 0, 1, 0, 0], .bm1024),
    (bs [0, 0, 0, 0, 0, 0, 1, 1, 1, 0, 1, 0, 1], .bm1088),
    (bs [0, 0, 0, 0, 0, 0, 1, 1, 1, 0, 1, 1, 0], .bm1152),
    (bs [0, 0, 0, 0, 0, 0, 1, 1, 1, 0, 1, 1, 1], .bm1216),
    (bs [0, 0, 0, 0, 0, 0, 1, 0, 1, 0, 0, 1, 0], .bm1280),
    (bs [0, 0, 0, 0, 0, 0, 1, 0, 1, 0, 0, 1, 1], .bm1344),
    (bs [0, 0, 0, 0, 0, 0, 1, 0, 1, 0, 1, 0, 0], .bm1408),
    (bs [0, 0, 0, 0, 0, 0, 1, 0, 1, 0, 1, 0, 1], .bm1472),
    (bs [0, 0, 0, 0, 0, 0, 1, 0, 1, 1, 0, 1, 0], .bm1536),
    (bs [0, 0, 0, 0, 0, 0, 1, 0, 1, 1, 0, 1, 1], .bm1600),
    (bs [0, 0, 0, 0, 0, 0, 1, 1, 0, 0, 1, 0, 0], .bm1664),
    (bs [0, 0, 0, 0, 0, 0, 1, 1, 0, 0, 1, 0, 1], .bm1728)] = true := by decide +kernel

/-- 41_runlength.md rule R125. -/
theorem test_decode_extended_white_0 :
    reads (.run .white) [
    (bs [0, 0, 0, 0, 0, 0, 0, 1, 0, 0, 0], .xm1792),
    (bs [0, 0, 0, 0, 0, 0, 0, 1, 1, 0, 0], .xm1856),
    (bs [0, 0, 0, 0, 0, 0, 0, 1, 1, 0, 1], .xm1920),
    (bs [0, 0, 0, 0, 0, 0, 0, 1, 0, 0, 1, 0], .xm1984),
    (bs [0, 0, 0, 0, 0, 0, 0, 1, 0, 0, 1, 1], .xm2048),
    (bs [0, 0, 0, 0, 0, 0, 0, 1, 0, 1, 0, 0], .xm2112),
    (bs [0, 0, 0, 0, 0, 0, 0, 1, 0, 1, 0, 1], .xm2176),
    (bs [0, 0, 0, 0, 0, 0, 0, 1, 0, 1, 1, 0], .xm2240),
    (bs [0, 0, 0, 0, 0, 0, 0, 1, 0, 1, 1, 1], .xm2304),
    (bs [0, 0, 0, 0, 0, 0, 0, 1, 1, 1, 0, 0], .xm2368),
    (bs [0, 0, 0, 0, 0, 0, 0, 1, 1, 1, 0, 1], .xm2432),
    (bs [0, 0, 0, 0, 0, 0, 0, 1, 1, 1, 1, 0], .xm2496),
    (bs [0, 0, 0, 0, 0, 0, 0, 1, 1, 1, 1, 1], .xm2560)] = true := by decide +kernel

/-- 41_runlength.md rule R125. -/
theorem test_decode_extended_black_0 :
    reads (.run .black) [
    (bs [0, 0, 0, 0, 0, 0, 0, 1, 0, 0, 0], .xm1792),
    (bs [0, 0, 0, 0, 0, 0, 0, 1, 1, 0, 0], .xm1856),
    (bs [0, 0, 0, 0, 0, 0, 0, 1, 1, 0, 1], .xm1920),
    (bs [0, 0, 0, 0, 0, 0, 0, 1, 0, 0, 1, 0], .xm1984),
    (bs [0, 0, 0, 0, 0, 0, 0, 1, 0, 0, 1, 1], .xm2048),
    (bs [0, 0, 0, 0, 0, 0, 0, 1, 0, 1, 0, 0], .xm2112),
    (bs [0, 0, 0, 0, 0, 0, 0, 1, 0, 1, 0, 1], .xm2176),
    (bs [0, 0, 0, 0, 0, 0, 0, 1, 0, 1, 1, 0], .xm2240),
    (bs [0, 0, 0, 0, 0, 0, 0, 1, 0, 1, 1, 1], .xm2304),
    (bs [0, 0, 0, 0, 0, 0, 0, 1, 1, 1, 0, 0], .xm2368),
    (bs [0, 0, 0, 0, 0, 0, 0, 1, 1, 1, 0, 1], .xm2432),
    (bs [0, 0, 0, 0, 0, 0, 0, 1, 1, 1, 1, 0], .xm2496),
    (bs [0, 0, 0, 0, 0, 0, 0, 1, 1, 1, 1, 1], .xm2560)] = true := by decide +kernel

/-! ## The vectors of 95_test_vectors.md -/

/-- Rows of the opcode table, first bit most significant: WT13 is `000011` in the white table and VR2 in the mode
context, and a table word is read in the mode context first (log 17); EXT2D's `xxx` field is not read. -/
theorem test_decodeTableWord :
    decodeTableWord 10 0b0000110111 = some .bt0 ∧ decodeTableWord 6 0b000011 = some .vr2 ∧
      decodeTableWord 10 0b0000001101 = some .ext2d ∧ decodeTableWord 24 0x001001 = some .eofb ∧
      decodeTableWord 8 0b00110101 = some .wt0 ∧ decodeTableWord 8 0 = none := by decide +kernel

/-- The first step after reset runs the row placed: V0 completes a White line, a white code goes on to an end of
the input, and EOFB ends the job. -/
theorem test_withFetchWord :
    holds (step (State.reset.withFetchWord 1 1)) (fun t => t.lines = 1 ∧ t.status = .busy .decode) = true ∧
      holds (step (State.reset.withFetchWord 24 0x001001)) (fun t => t.status = .done ∧ t.lines = 0) = true ∧
      holds (step (State.reset.withFetchWord 7 0b0000001)) (fun t => t.status = .error .extensionNotSupported)
        = true := by decide +kernel

/-- P-1 and P-3. -/
theorem test_P_goes_on :
    goesOn (at8 [0, 1, 1, 0, 0, 0, 0, 0] white8 0 .white [0, 0, 0, 1]) 4 .white 4 [0, 0, 0] = true ∧
      goesOn (at8 [0, 0, 1, 1, 0, 0, 1, 1] white8 0 .white [0, 0, 0, 1]) 5 .white 4 [0, 0, 0, 0] = true := by
  decide +kernel

/-- P-2 and P-4. -/
theorem test_P_completes :
    completes (at8 white8 [1, 1, 1, 1, 1, 1, 1, 1] 0 .white [0, 0, 0, 1]) 4 white8 = true ∧
      completes (at8 [0, 0, 1, 1, 0, 1, 1, 0] [1, 1, 1, 1, 0, 0, 0, 0] 5 .black [0, 0, 0, 1]) 4
        [1, 1, 1, 1, 1, 1, 1, 1] = true := by decide +kernel

/-- H-1, H-2, H-3, H-4 and H-6. -/
theorem test_H_fills :
    completes (at8 white8 white8 0 .white [0, 0, 1, 1, 0, 0, 0, 0, 0, 1, 1]) 11 [0, 0, 0, 1, 1, 1, 1, 1] = true ∧
      completes (at8 white8 white8 0 .white [0, 0, 1, 0, 0, 1, 1, 0, 1, 0, 1, 0, 0, 0, 1, 0, 1]) 17
        [1, 1, 1, 1, 1, 1, 1, 1] = true ∧
      goesOn (at8 white8 white8 0 .white [0, 0, 1, 0, 0, 1, 1, 0, 1, 0, 1, 0, 0, 0, 0, 1, 1, 0, 1, 1, 1])
        1 .white 21 [] = true ∧
      goesOn (at8 white8 white8 3 .white [0, 0, 1, 0, 1, 1, 1, 1, 0]) 8 .white 9 [0, 0, 0, 0, 1, 1, 1] = true ∧
      completes (at8 white8 white8 0 .white [0, 0, 1, 1, 0, 0, 1, 1, 0, 0, 0, 0, 1, 1, 0, 1, 1, 1]) 18 white8
        = true := by decide +kernel

/-- H-5, H-7, H-8, H-9, H-10 and H-11: the bound is tested once, after both runs. -/
theorem test_H_raises :
    ends (at8 white8 white8 0 .white [0, 0, 1, 1, 0, 0, 0, 0, 0, 1, 0]) 11 (.error .outOfBounds) = true ∧
      ends (at8 white8 white8 0 .white [0, 0, 1, 1, 0, 1, 0, 0, 0, 0, 0, 0, 1, 1, 0, 1, 1, 1]) 18
        (.error .outOfBounds) = true ∧
      ends (at8 white8 white8 0 .white [0, 0, 1, 0, 0, 0, 1, 0, 0, 0, 0, 0, 0, 0, 0, 0, 0, 0]) 18
        (.error .unknownCode) = true ∧
      ends (at8 white8 white8 0 .white [0, 0, 1, 1, 0, 0, 0, 0, 0, 0, 0, 0, 0, 0, 0]) 15 (.error .unknownCode)
        = true ∧
      ends (at8 white8 white8 0 .white [0, 0, 1, 0, 0, 0, 0, 0, 0, 0, 0]) 11 (.error .unknownCode) = true ∧
      ends (at8 white8 white8 0 .white [0, 0, 1, 1, 0, 0, 0, 0, 0]) 9 (.error .endOfStream) = true := by
  decide +kernel

/-- V0-1 and V0-2. -/
theorem test_V0 :
    goesOn (at8 [0, 0, 0, 0, 1, 1, 1, 1] white8 0 .white [1]) 5 .black 1 [0, 0, 0, 0] = true ∧
      completes (at8 white8 white8 0 .white [1]) 1 white8 = true := by decide +kernel

/-- VR1-1 and VR1-2. -/
theorem test_VR1 :
    goesOn (at8 [0, 0, 0, 0, 1, 1, 1, 1] white8 0 .white [0, 1, 1]) 6 .black 3 [0, 0, 0, 0, 0] = true ∧
      ends (at8 white8 white8 0 .white [0, 1, 1]) 3 (.error .outOfBounds) = true := by decide +kernel

/-- VR2-1. -/
theorem test_VR2 :
    goesOn (at8 [0, 0, 0, 0, 1, 1, 1, 1] white8 0 .white [0, 0, 0, 0, 1, 1]) 7 .black 6 [0, 0, 0, 0, 0, 0]
      = true := by decide +kernel

/-- VR3-1, VR3-2 and VR3-3. -/
theorem test_VR3 :
    goesOn (at8 [0, 0, 0, 0, 1, 1, 1, 1] white8 0 .white [0, 0, 0, 0, 0, 1, 1]) 8 .black 7 [0, 0, 0, 0, 0, 0, 0]
        = true ∧
      ends (at8 [0, 0, 0, 0, 0, 0, 1, 1] white8 0 .white [0, 0, 0, 0, 0, 1, 1]) 7 (.error .outOfBounds) = true ∧
      ends (at8 [0, 0, 0, 0, 0, 0, 0, 1] white8 0 .white [0, 0, 0, 0, 0, 1, 1]) 7 (.error .outOfBounds)
        = true := by decide +kernel

/-- VL1-1, VL1-2 and VL1-4. -/
theorem test_VL1 :
    goesOn (at8 [0, 0, 0, 0, 1, 1, 1, 1] white8 0 .white [0, 1, 0]) 4 .black 3 [0, 0, 0] = true ∧
      ends (at8 [1, 0, 0, 0, 0, 0, 0, 0] white8 0 .white [0, 1, 0]) 3 (.error .outOfBounds) = true ∧
      goesOn (at8 [0, 0, 1, 1, 1, 0, 0, 0] white8 2 .black [0, 1, 0]) 5 .white 3 [0, 1, 1, 1] = true := by
  decide +kernel

/-- VL2-1 and VL2-2. -/
theorem test_VL2 :
    goesOn (at8 [0, 0, 0, 0, 1, 1, 1, 1] white8 0 .white [0, 0, 0, 0, 1, 0]) 3 .black 6 [0, 0] = true ∧
      ends (at8 [0, 0, 0, 0, 1, 0, 0, 0] white8 4 .black [0, 0, 0, 0, 1, 0]) 6 (.error .outOfBounds) = true := by
  decide +kernel

/-- VL3-1. -/
theorem test_VL3 :
    goesOn (at8 [0, 0, 0, 0, 1, 1, 1, 1] white8 0 .white [0, 0, 0, 0, 0, 1, 0]) 2 .black 7 [0] = true := by
  decide +kernel

/-- EXT2D and EXT1D: raised at the seventh and the ninth bit. -/
theorem test_EXT :
    ends (at8 white8 white8 0 .white [0, 0, 0, 0, 0, 0, 1, 0, 0, 0]) 7 (.error .extensionNotSupported) = true ∧
      ends (at8 white8 white8 0 .white [0, 0, 0, 0, 0, 0, 0, 0, 1, 1, 1, 1]) 9 (.error .extensionNotSupported)
        = true := by decide +kernel

/-- EOFB-1 and EOFB-2: a partial line is not pushed. -/
theorem test_EOFB :
    ends (at8 white8 white8 0 .white [0, 0, 0, 0, 0, 0, 0, 0, 0, 0, 0, 1, 0, 0, 0, 0, 0, 0, 0, 0, 0, 0, 0, 1])
        24 .done = true ∧
      ends (at8 white8 white8 3 .black [0, 0, 0, 0, 0, 0, 0, 0, 0, 0, 0, 1, 0, 0, 0, 0, 0, 0, 0, 0, 0, 0, 0, 1,
        1, 1, 1, 1]) 24 .done = true := by decide +kernel

/-- INV-1 to INV-6. -/
theorem test_INV :
    ends (at8 white8 white8 0 .white [0, 0, 0, 0, 0, 0, 0, 1]) 8 (.error .invalidEofb) = true ∧
      ends (at8 white8 white8 0 .white [0, 0, 0, 0, 0, 0, 0, 0, 0, 1]) 10 (.error .invalidEofb) = true ∧
      ends (at8 white8 white8 0 .white [0, 0, 0, 0, 0, 0, 0, 0, 0, 0, 1]) 11 (.error .invalidEofb) = true ∧
      ends (at8 white8 white8 0 .white [0, 0, 0, 0, 0, 0, 0, 0, 0, 0, 0, 0]) 12 (.error .invalidEofb) = true ∧
      ends (at8 white8 white8 0 .white [0, 0, 0, 0, 0, 0, 0, 0, 0, 0, 0, 1, 1]) 13 (.error .invalidEofb)
        = true ∧
      ends (at8 white8 white8 0 .white [0, 0, 0, 0, 0, 0, 0, 0, 0, 0, 0, 1, 0, 0, 0, 0, 0, 0, 0, 0, 0, 0, 0, 0])
        24 (.error .invalidEofb) = true := by decide +kernel

/-- EOS-1 to EOS-5. -/
theorem test_EOS :
    ends (at8 white8 white8 0 .white []) 0 (.error .endOfStream) = true ∧
      ends (at8 white8 white8 0 .white [0, 0]) 2 (.error .endOfStream) = true ∧
      ends (at8 white8 white8 0 .white [0, 0, 0, 0, 0, 0, 0]) 7 (.error .endOfStream) = true ∧
      ends (at8 white8 white8 0 .white [0, 0, 0, 0, 0, 0, 0, 0, 0, 0, 0, 1]) 12 (.error .endOfStream) = true ∧
      ends (at8 white8 white8 0 .white [0, 0, 0, 0, 0, 0, 0, 0, 0, 0, 0, 1, 0, 0]) 14 (.error .endOfStream)
        = true := by decide +kernel

/-- RL-20 and RL-22: make-up codes in any order, and the extended ones of either table, in a first run of White
and a second of Black (41_runlength.md rule R127). The sum of the runs is seen in `a0`. -/
theorem test_make_up_in_any_order :
    let s := { at8 [] [] 0 .white [0, 0, 1, 1, 1, 0, 1, 1, 1, 1, 0, 1, 1, 0, 0, 0, 1, 1, 1,
        0, 0, 0, 0, 0, 0, 0, 1, 0, 0, 0, 0, 0, 0, 0, 0, 0, 1, 1, 0, 0, 1, 0, 1, 0, 0, 0, 0, 1, 1, 0, 1, 1, 1]
      with cfgWidth := 6150 }
    holds (step s) (fun t => t.a0 = 1 + 129 + 3520 ∧ t.pos = s.pos + 53) = true := by decide +kernel

/-- B-1, B-2, B-7 and B-9. -/
theorem test_unpacker :
    let s := { State.reset with cfgInLen := 1, inMem := [(0, 0xC1)] }
    State.stream s = bs [1, 1, 0, 0, 0, 0, 0, 1] ∧
      State.stream { s with order := true } = bs [1, 0, 0, 0, 0, 0, 1, 1] ∧
      State.peek { s with inMem := [(0, 0x80)], pos := 6 } 5 = bs [0, 0] ∧
      (match peekOp 25 s with | .error r => decide (r = .peekTooWide) | .ok _ => false) = true := by
  decide +kernel

/-- B-11, B-12, B-13 and B-14. -/
theorem test_packer :
    holds (writeBitsOp 0xABCD 16 State.reset) (fun t => t.outMem = [(0, 0xAB), (1, 0xCD)] ∧ t.outLen = 2) = true ∧
      holds (writeBitsOp 0xFF 4 State.reset) (fun t =>
        holds (doneOp t) fun u => u.outMem = [(0, 0xF0)] ∧ u.outLen = 1) = true ∧
      holds (writeBitsOp 5 0 State.reset) (fun t => t = State.reset) = true ∧
      refuses (writeBitsOp 1 17 State.reset) .writeTooWide = true := by decide +kernel

/-- X1 and X2. -/
theorem test_writer_example :
    holds (writeBitsOp 0x0F0 12 State.reset) (fun t => holds (writeBitsOp 0xA 4 t) fun u =>
      u.outMem = [(0, 0x0F), (1, 0x0A)] ∧ u.nacc = 0 ∧ holds (doneOp u) (fun v => v = u)) = true := by
  decide +kernel

/-- Rows of the table of 95_test_vectors.md section 3.2.2: 63, 64, 1791, 2624 and 5183. -/
theorem test_runCodes :
    runCodes .white 63 = [.wt63] ∧ runCodes .black 64 = [.bm64, .bt0] ∧ runCodes .white 1791 = [.wm1728, .wt63] ∧
      runCodes .black 2624 = [.xm2560, .bm64, .bt0] ∧ runCodes .white 5183 = [.xm2560, .xm2560, .wt63] := by
  decide +kernel

/-- S-1 and S-4: `BWB` then `WWW`, three pixels a line, without padding between the lines. -/
theorem test_store :
    let s := { State.reset with cfgWidth := 3, status := .busy .decode, buf1 := line [1, 0, 1] }
    holds (lineComplete s) (fun t => holds (lineComplete { t with buf0 := line [0, 0, 0] }) fun u =>
        u.acc = bs [1, 0, 1, 0, 0, 0] ∧ u.lines = 2 ∧ holds (finishDecode u) fun v => v.outMem = [(0, 0xA0)])
        = true ∧
      holds (lineComplete { s with cfgMode := 2 }) (fun t => t.ca = [.black, .white, .black] ∧ t.outLen = 0)
        = true := by decide +kernel

/-- S-6's second step: the line pushed before the error is kept and flushed. -/
theorem test_error_keeps_lines :
    let s := { at8 white8 white8 0 .white [0, 0, 1, 0, 0, 0, 0] with store := [line white8], lines := 1, acc := bs [1] }
    holds (step s) (fun t => t.status = .error .endOfStream ∧ t.lines = 1 ∧ t.store = s.store ∧
      t.outMem = [(0, 0x80)] ∧ t.outLen = 1) = true := by decide +kernel

/-- E-1, E-2, E-9 and the first step of E-17. -/
theorem test_encode_line_start :
    holds (step (encode8 white8 0x00)) (fun t => t.acc = bs [1] ∧ t.lines = 1 ∧ t.y = 1) = true ∧
      holds (step (encode8 white8 0x1F)) (fun t => t.outBits = bs [0, 0, 1, 1, 0, 0, 0, 0, 0, 1, 1] ∧ t.lines = 1)
        = true ∧
      holds (step (encode8 white8 0xFF)) (fun t =>
        t.outBits = bs [0, 0, 1, 0, 0, 1, 1, 0, 1, 0, 1, 0, 0, 0, 1, 0, 1] ∧ t.lines = 1) = true ∧
      holds (step (encode8 white8 0x81)) (fun t =>
        t.outBits = bs [0, 0, 1, 0, 0, 1, 1, 0, 1, 0, 1, 0, 1, 0] ∧ t.a0 = 2 ∧ t.color = .white) = true := by
  decide +kernel

/-- Line 1 of E-3 to E-8, under `WWWWBBBB`, and of E-4, under `WBBWWWWW`. -/
theorem test_encode_modes :
    let ref := [0, 0, 0, 0, 1, 1, 1, 1]
    holds (step (encode8 ref 0x07)) (fun t => t.acc = bs [0, 1, 1] ∧ t.a0 = 6 ∧ t.color = .black) = true ∧
      holds (step (encode8 ref 0x1F)) (fun t => t.acc = bs [0, 1, 0] ∧ t.a0 = 4) = true ∧
      holds (step (encode8 ref 0x3F)) (fun t => t.acc = bs [0, 0, 0, 0, 1, 0] ∧ t.a0 = 3) = true ∧
      holds (step (encode8 ref 0x03)) (fun t => t.acc = bs [0, 0, 0, 0, 1, 1] ∧ t.a0 = 7) = true ∧
      holds (step (encode8 ref 0x01)) (fun t => t.acc = bs [0, 0, 0, 0, 0, 1, 1] ∧ t.a0 = 8) = true ∧
      holds (step (encode8 [0, 1, 1, 0, 0, 0, 0, 0] 0x00)) (fun t => t.acc = bs [0, 0, 0, 1] ∧ t.a0 = 4 ∧
        t.color = .white) = true := by decide +kernel

/-- E-11's first decision (an offset of −3), and E-10: EOFB alone, `OUT = 00 10 01`. -/
theorem test_encode_edges :
    holds (step { encode8 white8 0xA0 with cfgWidth := 3 }) (fun t => t.acc = bs [0, 0, 0, 0, 0, 1, 0] ∧ t.a0 = 1)
        = true ∧
      holds (step { encode8 white8 0x00 with cfgInLen := 0 }) (fun t =>
        t.status = .done ∧ t.lines = 0 ∧ t.outMem = [(1, 0x10), (2, 0x01)] ∧ t.outLen = 3) = true := by
  decide +kernel

/-- E-13: a lead and a tail column are skipped. -/
theorem test_encode_skips :
    holds (step { encode8 white8 0x7E with cfgWidth := 6, cfgSkipLead := 1, cfgSkipTail := 1 })
      (fun t => t.outBits = bs [0, 0, 1, 0, 0, 1, 1, 0, 1, 0, 1, 0, 0, 1, 0] ∧ t.lines = 1 ∧ t.rpos = 8) = true := by
  decide +kernel

/-- H-R1, H-R2, H-R3 and H-R4; `LINES` and `OUT_LEN` hold 0, but rule R66 refuses their read in IDLE (log 13). -/
theorem test_host_start :
    (List.range 7).all (fun no => holds (hostReadReg no State.reset) fun t => t.hostData = .word 0) = true ∧
      State.reset.lines = 0 ∧ State.reset.outLen = 0 ∧
      refuses (hostReadReg 7 State.reset) .hostReadTooEarly = true ∧
      refuses (hostReadReg 8 State.reset) .hostReadTooEarly = true ∧
      refuses (step { State.reset with hostOps := [.writeReg 5 1] }) .illegalWidth = true ∧
      refuses (step { State.reset with cfgWidth := 8, hostOps := [.writeReg 5 3] }) .reservedCommand = true ∧
      refuses (step { State.reset with cfgWidth := 8, cfgMode := 1, hostOps := [.writeReg 5 2] }) .encodeLsbFirst
        = true := by decide +kernel

/-- H-R10, H-R11 and H-R12. -/
theorem test_host_busy :
    let s := at8 white8 white8 0 .white [1]
    refuses (step { s with hostOps := [.writeReg 0 4] }) .hostWriteWhileBusy = true ∧
      refuses (step { s with hostOps := [.writeReg 5 1] }) .startWhileBusy = true ∧
      holds (step { s with hostOps := [.reset] }) (fun t => t.status = .idle ∧ t.cfgWidth = 0 ∧ t.inMem = s.inMem)
        = true := by decide +kernel

/-- The words of STATUS in H-R5, H-R7 and P2. -/
theorem test_statusWord :
    statusWord .done = 0x02 ∧ statusWord (.error .outOfBounds) = 0x23 ∧
      statusWord (.error .extensionNotSupported) = 0x43 := by decide +kernel

/-! ## Witnesses: states and operands that meet the hypotheses of each statement, at the boundaries of its clauses

Each is named after the statement of Certificates/Slice0/Obligations.lean whose hypotheses it meets. -/

/-- A running decode job of eight pixels on the stream of X4, as START leaves it. -/
def decoding : State :=
  beginJob .decode
    { State.reset with
      cfgWidth := 8, cfgInLen := 5, inMem := writeAll [] 0 [0x30, 0x60, 0x02, 0x00, 0x20] }

/-- A running encode job of eight pixels on the two lines of E-3, as START leaves it. -/
def encoding : State :=
  beginJob .encode { State.reset with cfgWidth := 8, cfgInLen := 2, inMem := writeAll [] 0 [0x0F, 0x07] }

/-- The invariant of a running job of eight pixels, from its parts. -/
theorem inv_of {s : State} (h1 : Memory.wf s.inMem ∧ Memory.wf s.outMem) (h2 : s.cfgMode &&& 3 = s.cfgMode)
    (h3 : s.acc.length < 8 ∧ s.outLen ≤ s.params.maxOutBytes ∧ s.ca.length ≤ s.params.maxOutBytes)
    (h4 : s.phase = .mode) (h5 : 1 ≤ s.width ∧ s.width ≤ s.params.maxWidth) (h6 : s.inLen ≤ s.params.maxInBytes)
    (h7 : s.order = s.cfgOrder) (h8 : s.buf0.length = s.width + 1 ∧ cell s.buf0 0 = .white)
    (h9 : s.buf1.length = s.width + 1 ∧ cell s.buf1 0 = .white) (h10 : s.a0 ≤ s.width)
    (h11 : s.a0 = 0 → s.color = .white) (h12 : s.pos ≤ 8 * s.inLen) : Inv s :=
  ⟨h1.1, h1.2, h2, h3.1, h3.2.1, h3.2.2, h4, fun _ => ⟨h5, h6, h7, h8, h9, h10, h11, h12⟩⟩

theorem decoding_inv : Inv decoding := by apply inv_of <;> decide +kernel

theorem encoding_inv : Inv encoding := by apply inv_of <;> decide +kernel

theorem decoding_output : DecodeOutput decoding :=
  ⟨by decide +kernel, by decide +kernel, by decide +kernel, by decide +kernel⟩

/-- A packed store with seven bits of a byte in progress and room for exactly that byte. -/
def lastRoom : State :=
  { decoding with acc := bs [1, 0, 1, 0, 1, 0, 1], params := { Config.params with maxOutBytes := 1 } }

/-- The same without room. -/
def noRoom : State := { lastRoom with params := { Config.params with maxOutBytes := 0 } }

theorem witness_DecodeOfEncodeIsTheCodeWord :
    Instr.wellFormedIn .eofb .mode = true ∧ Instr.wellFormedIn .bt3 (.run .black) = true ∧
      Instr.wellFormedIn .xm2560 (.run .white) = true ∧ Instr.wellFormedIn .xm2560 (.run .black) = true := by
  decide +kernel

theorem witness_OnlyCodeWordsDecode :
    decode .mode (bs [1, 0]) = .word .v0 [false] ∧
      decode (.run .black) (bs [0, 0, 0, 0, 0, 0, 0, 1, 1, 1, 1, 1, 1]) = .word .xm2560 [true] := by decide +kernel

theorem witness_CodebooksArePrefixFree :
    Instr.wellFormedIn .v0 .mode = true ∧ encode .v0 <+: encode .v0 ∧
      Instr.wellFormedIn .xm2560 (.run .white) = true ∧ Instr.wellFormedIn .bm1728 (.run .black) = true ∧
      Instr.wellFormedIn .eofb .mode = true := by decide +kernel

theorem witness_ModeCodebookCoverage :
    (List.replicate 12 false).length = 12 ∧ List.replicate 12 false ≠ eol ∧
      24 ≤ (eol ++ eol).length ∧ 24 ≤ (List.replicate 24 false).length ∧
      24 ≤ (eol ++ List.replicate 12 false).length := by decide +kernel

/-- `a0 = W`, the last position of the line. -/
theorem witness_PassFillsToB2 : State.a0 { decoding with a0 := 8 } ≤ State.width { decoding with a0 := 8 } := by
  decide +kernel

/-- `b1 = 9 = W + 1`: V0 at `W + 1`, VR1 beyond it; VL1 at `a0 + 1`, and at `a0`. -/
theorem witness_VerticalMovesToA1 :
    let s := decoding
    ((9 : Nat) : Int) = (s.b1 : Int) + 0 ∧ s.a0 < 9 ∧ 9 ≤ s.width + 1 ∧ (s.width : Int) + 1 < (s.b1 : Int) + 1 ∧
      ((8 : Nat) : Int) = (State.b1 { s with a0 := 7 } : Int) + -1 ∧
      (State.b1 { s with a0 := 8 } : Int) + -1 ≤ (8 : Int) ∧
      (.vl1, -1, bs [0, 1, 0]) ∈ verticalCodes := by decide +kernel

theorem witness_RunCodesAddToTheFirstRun :
    let s := { decoding with phase := .run1 64 }
    s.phase = .run1 64 ∧ (⟨.wt63, 8, 0b00110100, 63⟩ : RunRow) ∈ runRows s.color ∧
      (⟨.wm64, 5, 0b11011, 64⟩ : RunRow) ∈ runRows s.color := by decide +kernel

theorem witness_MakeUpCodesAddToTheSecondRun :
    let s := { decoding with phase := .run2 3 0 }
    s.phase = .run2 3 0 ∧ (⟨.bm64, 10, 0b0000001111, 64⟩ : RunRow) ∈ runRows (invert s.color) := by decide +kernel

/-- Runs that end at `W + 1` exactly, and one pixel beyond it. -/
theorem witness_TerminatingCodeClosesThePair :
    let s := { decoding with phase := .run2 3 0 }
    s.phase = .run2 3 0 ∧ (⟨.bt5, 4, 0b0011, 5⟩ : RunRow) ∈ runRows (invert s.color) ∧
      max s.a0 1 + 3 + (0 + 5) = s.width + 1 ∧ (⟨.bt6, 4, 0b0010, 6⟩ : RunRow) ∈ runRows (invert s.color) ∧
      s.width + 1 < max s.a0 1 + 3 + (0 + 6) := by decide +kernel

theorem witness_ExtensionEndsTheJob : lastRoom.acc.length < 8 ∧ lastRoom.flushFits := by decide +kernel

theorem witness_EofbEndsTheJob : State.reset.acc.length < 8 ∧ State.reset.flushFits := by decide +kernel

theorem witness_RaiseEndsTheJob : lastRoom.acc.length < 8 ∧ lastRoom.flushFits ∧ lastRoom.flushes := by
  decide +kernel

theorem witness_OverflowAtTheEndIsRefused : noRoom.acc.length < 8 ∧ ¬ noRoom.flushFits := by decide +kernel

theorem witness_RunCodesNeedTheirRun :
    let r : RunRow := ⟨.bm1728, 13, 0b0000001100101, 1728⟩
    decode decoding.context decoding.stream = .word .h (decoding.stream.drop 3) ∧
      r ∈ runRows .black ∧ decoding.phase = .mode ∧ decoding.color ≠ .black ∧ r.value < 1792 ∧
      State.phase { decoding with phase := .run1 0 } = .run1 0 ∧
      State.phase { decoding with phase := .run2 0 0, color := .black } = .run2 0 0 := by decide +kernel

/-- A code word after which the job goes on, and one that ends it. -/
theorem witness_CodeWordFrame :
    (∃ t, exec .p decoding = .next t ∧ t.status = decoding.status ∧ decoding.status = .busy .decode) ∧
      (∃ t, exec .eofb lastRoom = .next t) ∧ Instr.p ∉ verticalCodes.map (·.1) := by
  refine ⟨?_, ?_, by decide +kernel⟩
  · obtain ⟨t, h, p⟩ := of_holds (r := exec .p decoding) (fun t => t.status = decoding.status) (by decide +kernel)
    exact ⟨t, h, by simpa using p, by decide +kernel⟩
  · obtain ⟨t, h, -⟩ := of_holds (r := exec .eofb lastRoom) (fun _ => true) (by decide +kernel)
    exact ⟨t, h⟩

theorem witness_StepRunsTheDecodedInstruction :
    decoding.hostOps = [] ∧ decoding.status = .busy .decode ∧
      decode decoding.context decoding.stream = .word .h (decoding.stream.drop 3) := by decide +kernel

/-- Dead bits in the mode context and in a run, and bits that end too early. -/
theorem witness_UnreadableBitsEndTheJob :
    let m := at8 white8 white8 0 .white [0, 0, 0, 0, 0, 0, 0, 1]
    let r := { at8 white8 white8 0 .white [0, 0, 0, 0, 0, 0, 0, 0] with phase := .run1 0 }
    let e := at8 white8 white8 0 .white []
    (m.hostOps = [] ∧ m.status = .busy .decode ∧ decode m.context m.stream = .dead .invalidEofb []) ∧
      (r.hostOps = [] ∧ r.status = .busy .decode ∧ decode r.context r.stream = .dead .unknownCode []) ∧
      (e.hostOps = [] ∧ e.status = .busy .decode ∧ decode e.context e.stream = .short) := by decide +kernel

/-- `H WT3 BT5`, which ends at `W + 1`, and `H WM64 WT0 BT0`, which is out of bounds. -/
theorem witness_HorizontalStep :
    let wt3 : RunRow := ⟨.wt3, 4, 0b1000, 3⟩
    let bt5 : RunRow := ⟨.bt5, 4, 0b0011, 5⟩
    let wm64 : RunRow := ⟨.wm64, 5, 0b11011, 64⟩
    let s := at8 white8 white8 0 .white [0, 0, 1, 1, 1, 0, 1, 1, 1, 0, 0, 0, 0, 0, 1, 1]
    (decoding.status = .busy .decode ∧ decoding.phase = .mode ∧ wt3 ∈ runRows decoding.color ∧ wt3.value < 64 ∧
      bt5 ∈ runRows (invert decoding.color) ∧ bt5.value < 64 ∧
      decoding.stream =
        encode .h ++ ([] ++ [wt3]).flatMap (fun r : RunRow => encode r.instr) ++
          ([] ++ [bt5]).flatMap (fun r : RunRow => encode r.instr) ++ decoding.stream.drop 11) ∧
      (s.status = .busy .decode ∧ s.phase = .mode ∧ wm64 ∈ runRows s.color ∧ 64 ≤ wm64.value ∧
        s.stream =
          encode .h ++ ([wm64] ++ [wt3]).flatMap (fun r : RunRow => encode r.instr) ++
            ([] ++ [bt5]).flatMap (fun r : RunRow => encode r.instr) ++ []) := by decide +kernel

/-- A first run of no pixels, and a second run with a make-up code. -/
theorem witness_RunBitsReadBack :
    let s := { at8 white8 white8 0 .white [0, 0, 1, 1, 0, 1, 0, 1, 1] with phase := .run1 0 }
    let t := { at8 white8 white8 0 .black [1, 1, 0, 1, 1, 0, 0, 1, 1, 0, 1, 0, 0] with phase := .run2 3 0 }
    (s.status = .busy .decode ∧ s.phase = .run1 0 ∧ s.stream = runBits s.color 0 ++ [true]) ∧
      (t.status = .busy .decode ∧ t.phase = .run2 3 0 ∧ t.stream = runBits (invert t.color) 127 ++ []) := by
  decide +kernel

/-- Both variants, with room for exactly one more line. -/
theorem witness_LineCompletePushesAndSwaps :
    let s := { decoding with params := { Config.params with maxOutBytes := 1 } }
    let t := { decoding with cfgMode := 2, params := { Config.params with maxOutBytes := 8 } }
    (s.acc.length < 8 ∧ Memory.wf s.outMem ∧ s.outLen ≤ s.params.maxOutBytes ∧ s.colourStore = false ∧
      s.outLen + (s.acc.length + s.width) / 8 = s.params.maxOutBytes) ∧
      (t.acc.length < 8 ∧ Memory.wf t.outMem ∧ t.outLen ≤ t.params.maxOutBytes ∧ t.colourStore = true ∧
        t.ca.length + t.width = t.params.maxOutBytes) := by decide +kernel

theorem witness_EveryDecodeStepConsumesABit :
    decoding.status = .busy .decode ∧ decoding.hostOps = [] ∧
      ∃ t, step decoding = .next t ∧ t.status = .busy .decode := by
  refine ⟨by decide +kernel, by decide +kernel, ?_⟩
  obtain ⟨t, h, p⟩ := of_holds (r := step decoding) (fun t => t.status = .busy .decode) (by decide +kernel)
  exact ⟨t, h, by simpa using p⟩

theorem witness_DecodeJobEnds : Inv decoding ∧ decoding.status = .busy .decode ∧ decoding.hostOps = [] :=
  ⟨decoding_inv, by decide +kernel, by decide +kernel⟩

theorem witness_ErrorsKeepThePushedLines :
    let s := { at8 white8 white8 0 .white [0, 0, 1, 0, 0, 0, 0] with store := [line white8], lines := 1, acc := bs [1] }
    s.status = .busy .decode ∧ s.hostOps = [] ∧ ∃ t, step s = .next t ∧ t.status = .error .endOfStream := by
  intro s
  refine ⟨by decide +kernel, by decide +kernel, ?_⟩
  obtain ⟨t, h, p⟩ := of_holds (r := step s) (fun t => t.status = .error .endOfStream) (by decide +kernel)
  exact ⟨t, h, by simpa using p⟩

/-- A decode step, an encode step and an accepted START. -/
theorem witness_StepKeepsTheInvariant :
    (Inv decoding ∧ ∃ t, step decoding = .next t) ∧ (Inv encoding ∧ ∃ t, step encoding = .next t) := by
  refine ⟨⟨decoding_inv, ?_⟩, encoding_inv, ?_⟩
  · obtain ⟨t, h, -⟩ := of_holds (r := step decoding) (fun _ => true) (by decide +kernel)
    exact ⟨t, h⟩
  · obtain ⟨t, h, -⟩ := of_holds (r := step encoding) (fun _ => true) (by decide +kernel)
    exact ⟨t, h⟩

/-- A packed job that goes on, one that ends with a partial byte, and one with the colour array. -/
theorem witness_OutputIsTheLinesPushed :
    (Inv decoding ∧ DecodeOutput decoding ∧ decoding.colourStore = false ∧
      ∃ t, step decoding = .next t ∧ t.status = .busy .decode) ∧
    (∃ s, Inv s ∧ DecodeOutput s ∧ s.colourStore = true ∧ s.status = .busy .decode ∧ s.hostOps = [] ∧
      ∃ t, step s = .next t) ∧
    (∃ s, Inv s ∧ DecodeOutput s ∧ s.colourStore = false ∧ s.status = .busy .decode ∧ s.hostOps = [] ∧
      s.acc ≠ [] ∧ ∃ t, step s = .next t ∧ t.hasResult = true) := by
  refine ⟨⟨decoding_inv, decoding_output, by decide +kernel, ?_⟩, ⟨{ decoding with cfgMode := 2 }, ?_⟩,
    { at8 [0, 0, 0] [0, 0, 0] 0 .white [] with
      cfgWidth := 3, store := [[.white, .black, .white]], lines := 1, acc := bs [0, 1, 0] }, ?_⟩
  · obtain ⟨t, h, p⟩ := of_holds (r := step decoding) (fun t => t.status = .busy .decode) (by decide +kernel)
    exact ⟨t, h, by simpa using p⟩
  · refine ⟨by apply inv_of <;> decide +kernel,
      ⟨by decide +kernel, by decide +kernel, by decide +kernel, by decide +kernel⟩, by decide +kernel,
      by decide +kernel, by decide +kernel, ?_⟩
    obtain ⟨t, h, -⟩ := of_holds (r := step { decoding with cfgMode := 2 }) (fun _ => true) (by decide +kernel)
    exact ⟨t, h⟩
  · refine ⟨by apply inv_of <;> decide +kernel,
      ⟨by decide +kernel, by decide +kernel, by decide +kernel, by decide +kernel⟩, by decide +kernel,
      by decide +kernel, by decide +kernel, by decide +kernel, ?_⟩
    exact of_holds (fun t => t.hasResult) (by decide +kernel)

theorem witness_StartHasNoOutput :
    ∃ t, startJob .decode { State.reset with cfgWidth := 8 } = .next t := by
  obtain ⟨t, h, -⟩ := of_holds (r := startJob .decode { State.reset with cfgWidth := 8 }) (fun _ => true)
    (by decide +kernel)
  exact ⟨t, h⟩

/-- Two states that differ in a pixel the line has not reached. -/
theorem witness_StalePixelsAreNotObservable :
    ∃ s s' t, Inv s ∧ s.status = .busy .decode ∧ SameButStale s s' ∧ s ≠ s' ∧ step s = .next t := by
  obtain ⟨t, h, -⟩ := of_holds (r := step decoding) (fun _ => true) (by decide +kernel)
  refine ⟨decoding, decoding.setCur (line [0, 0, 0, 0, 0, 0, 0, 1]), t, decoding_inv, by decide +kernel,
    ⟨⟨_, rfl⟩, by decide +kernel, by decide +kernel⟩, by decide +kernel, h⟩

/-- The packed bitmap and the colour array. -/
theorem witness_VariantDoesNotMatter :
    let s' := { decoding with cfgMode := 2 }
    decoding.status = .busy .decode ∧ decoding.hostOps = [] ∧ decoding.withoutVariant = s'.withoutVariant ∧
      decoding ≠ s' ∧ (∃ t, step decoding = .next t) ∧ ∃ t, step s' = .next t := by
  intro s'
  refine ⟨by decide +kernel, by decide +kernel, by decide +kernel, by decide +kernel, ?_, ?_⟩
  · obtain ⟨t, h, -⟩ := of_holds (r := step decoding) (fun _ => true) (by decide +kernel)
    exact ⟨t, h⟩
  · obtain ⟨t, h, -⟩ := of_holds (r := step s') (fun _ => true) (by decide +kernel)
    exact ⟨t, h⟩

theorem witness_CoreWritesNoInput :
    encoding.isBusy = true ∧ encoding.hostOps = [] ∧ ∃ t, step encoding = .next t := by
  refine ⟨by decide +kernel, by decide +kernel, ?_⟩
  obtain ⟨t, h, -⟩ := of_holds (r := step encoding) (fun _ => true) (by decide +kernel)
  exact ⟨t, h⟩

theorem witness_OutIsWrittenInOrder :
    Inv encoding ∧ encoding.isBusy = true ∧ encoding.hostOps = [] ∧ ∃ t, step encoding = .next t :=
  ⟨encoding_inv, witness_CoreWritesNoInput⟩

/-- Position 5 of `WWWWBBBB`: a changing element to another colour, of both lines; and `a0 = W`. -/
theorem witness_ChangingElements :
    let s := at8 [0, 0, 0, 0, 1, 1, 1, 1] [0, 0, 0, 0, 1, 1, 1, 1] 0 .white []
    s.a0 < 5 ∧ 5 ≤ s.width ∧ cell s.ref 5 ≠ cell s.ref 4 ∧ cell s.ref 5 ≠ s.color ∧ s.b1 = 5 ∧ s.b2 = 9 ∧
      cell s.cur 5 ≠ cell s.cur 4 ∧ s.a1 = 5 ∧ s.a2 = 9 ∧
      State.b2 { s with buf0 := line [1, 0, 0, 0, 0, 0, 0, 0] } = 2 ∧
      State.a0 { s with a0 := 8 } ≤ State.width { s with a0 := 8 } := by decide +kernel

/-- The last bit of the input, its end, and the widest and the refused PEEK. -/
theorem witness_UnpackerDeliversTheInput :
    State.pos { decoding with pos := 39 } < 8 * decoding.inLen ∧
      8 * decoding.inLen ≤ State.pos { decoding with pos := 40 } ∧ 24 ≤ Config.peekMax ∧ Config.peekMax < 25 := by
  decide +kernel

/-- Exactly the room for the bits, with seven bits in progress. -/
theorem witness_WriteBitsAppendsTheLowBits :
    let s := { lastRoom with params := { Config.params with maxOutBytes := 2 } }
    s.acc.length < 8 ∧ Memory.wf s.outMem ∧ s.outLen + (s.acc.length + 16) / 8 = s.params.maxOutBytes ∧
      s.outLen + (s.acc.length + 16) / 8 ≤ s.params.maxOutBytes ∧
      s.outLen + (s.acc.length + 0) / 8 ≤ s.params.maxOutBytes ∧ 16 ≤ 16 ∧ 16 < 17 := by
  decide +kernel

/-- A byte in progress and the last byte of `OUT` free, and a full `OUT` without a byte in progress. -/
theorem witness_FlushIsIdempotent :
    (lastRoom.acc.length < 8 ∧ Memory.wf lastRoom.outMem ∧ lastRoom.outLen < lastRoom.params.maxOutBytes ∧
      lastRoom.acc ≠ []) ∧
      let s := { noRoom with acc := [] }
      s.acc.length < 8 ∧ Memory.wf s.outMem ∧ s.outLen = s.params.maxOutBytes ∧
        (s.acc ≠ [] → s.outLen < s.params.maxOutBytes) ∧ s.acc = [] := by decide +kernel

/-- The writes of X1, which end at a byte, and of B-12, which do not. -/
theorem witness_WriterThenReaderIsTheIdentity :
    ∀ words ∈ [[(0x0F0, 12), (0xA, 4)], [(0xFF, 4)]], State.reset.acc = [] ∧ State.reset.outLen = 0 ∧
      Memory.wf State.reset.outMem ∧ (∀ w ∈ words, w.2 ≤ 16) ∧
      ∃ t u,
        words.foldl (fun r w => match r with | .next v => writeBitsOp w.1 w.2 v | r => r)
          (Host.Outcome.next State.reset : Result) = .next t ∧
        doneOp t = .next u ∧ u.outLen < 2 ^ 32 := by
  intro words hw
  have key : ∀ words ∈ [[(0x0F0, 12), (0xA, 4)], [(0xFF, 4)]],
      (State.reset.acc = [] ∧ State.reset.outLen = 0 ∧ Memory.wf State.reset.outMem ∧ ∀ w ∈ words, w.2 ≤ 16) ∧
      holds (words.foldl (fun r w => match r with | .next v => writeBitsOp w.1 w.2 v | r => r)
        (Host.Outcome.next State.reset : Result)) (fun t => holds (doneOp t) fun u => u.outLen < 2 ^ 32) = true := by
    decide +kernel
  obtain ⟨⟨h1, h2, h3, h4⟩, h5⟩ := key words hw
  obtain ⟨t, ht, h6⟩ := of_holds _ h5
  obtain ⟨u, hu, h7⟩ := of_holds _ h6
  exact ⟨h1, h2, h3, h4, t, u, ht, hu, by simpa using h7⟩

/-- The first and the last pixel, and the last line of the source. -/
theorem witness_LoadLineReadsTheSource :
    1 ≤ encoding.width ∧ 8 = encoding.width ∧ State.y { encoding with y := 1 } + 1 = encoding.height := by
  decide +kernel

theorem witness_InputBitOrder :
    decoding.order = decoding.cfgOrder ∧ State.order { decoding with order := true, cfgMode := 1 } = true ∧
      State.cfgOrder { decoding with order := true, cfgMode := 1 } = true := by decide +kernel

/-- Pass; the offsets −3, 0 and 3; an offset of 4. -/
theorem witness_EncoderModeDecision :
    let s := fun (ref : List Nat) (v : Byte) => startLine (encode8 ref v)
    let wb : List Nat := [0, 0, 0, 0, 1, 1, 1, 1]
    ((s [0, 1, 1, 0, 0, 0, 0, 0] 0).b2 < (s [0, 1, 1, 0, 0, 0, 0, 0] 0).a1) ∧
      (¬ (s wb 0x7F).b2 < (s wb 0x7F).a1 ∧ ((s wb 0x7F).a1 : Int) - (s wb 0x7F).b1 = -3) ∧
      (¬ (s wb 0x0F).b2 < (s wb 0x0F).a1 ∧ ((s wb 0x0F).a1 : Int) - (s wb 0x0F).b1 = 0) ∧
      (¬ (s wb 0x01).b2 < (s wb 0x01).a1 ∧ ((s wb 0x01).a1 : Int) - (s wb 0x01).b1 = 3) ∧
      (¬ (s wb 0x80).b2 < (s wb 0x80).a1 ∧ ((s wb 0x80).a1 : Int) - (s wb 0x80).b1 = -4) ∧
      (codeStep (s [0, 1, 1, 0, 0, 0, 0, 0] 0)).isSome = true ∧ (codeStep (s wb 0x7F)).isSome = true ∧
      (codeStep (s wb 0x0F)).isSome = true ∧ (codeStep (s wb 0x01)).isSome = true ∧
      (codeStep (s wb 0x80)).isSome = true := by decide +kernel

theorem witness_RunCodesIsGreedy : 63 < 64 ∧ 64 ≤ 64 ∧ 64 ≤ 5183 := by decide

theorem witness_EveryCodeStepMovesRight :
    State.a0 (startLine encoding) ≤ State.width (startLine encoding) ∧
      (codeStep (startLine encoding)).isSome = true := by decide +kernel

/-- A decision within the line, one that ends it, and the termination with exactly the room it needs. -/
theorem witness_EncodeStep :
    let within := encode8 [0, 0, 0, 0, 1, 1, 1, 1] 0x07
    let whole := encode8 white8 0x00
    let last := { encode8 white8 0 with y := 1, acc := bs [1], params := { Config.params with maxOutBytes := 4 } }
    (within.hostOps = [] ∧ within.status = .busy .encode ∧ within.y < within.height ∧
      ((codeStep (startLine within)).map fun t => decide (t.a0 ≤ t.width)) = some true) ∧
    (whole.hostOps = [] ∧ whole.status = .busy .encode ∧ whole.y < whole.height ∧
      ((codeStep (startLine whole)).map fun t => decide (t.width < t.a0)) = some true) ∧
    (last.hostOps = [] ∧ last.status = .busy .encode ∧ last.height ≤ last.y ∧ last.acc.length < 8 ∧
      Memory.wf last.outMem ∧ last.outLen + (last.acc.length + 31) / 8 = last.params.maxOutBytes) := by
  decide +kernel

theorem witness_EncodeJobEnds : Inv encoding ∧ encoding.status = .busy .encode ∧ encoding.hostOps = [] :=
  ⟨encoding_inv, by decide +kernel, by decide +kernel⟩

/-- The encoder at the start of E-2's line, and the decoder that reads its decision. -/
theorem witness_DecoderInvertsTheEncoder :
    let e := startLine (encode8 white8 0x1F)
    let d := decoding
    e.width = d.width ∧ e.ref = d.ref ∧ e.a0 = d.a0 ∧ e.color = d.color ∧ e.a0 ≤ e.width ∧
      e.cur.length = e.width + 1 ∧ d.cur.length = d.width + 1 ∧ cell e.cur e.a0 = e.color ∧ e.a0 = 0 ∧
      (codeStep e).isSome = true ∧ d.status = .busy .decode ∧ d.phase = .mode ∧
      d.stream = e.decisionBits ++ d.stream.drop 11 := by decide +kernel

/-- The encode job of E-1, ended after two steps, and a decode job on its output. -/
theorem witness_DecodeOfEncodeIsTheImage :
    let s := { State.reset with cfgWidth := 8, cfgInLen := 1 }
    let d := { State.reset with cfgWidth := 8, cfgInLen := 4, inMem := writeAll [] 0 [0x80, 0x08, 0x00, 0x80] }
    1 ≤ s.width ∧ s.hostOps = [] ∧ Memory.wf s.outMem ∧ d.width = s.width ∧ d.cfgOrder = false ∧ d.hostOps = [] ∧
      Memory.wf d.outMem ∧ s.height * s.width ≤ d.params.maxOutBytes ∧
      ∃ t, runSteps 2 (beginJob .encode s) = .next t ∧ t.status = .done ∧ d.inLen = t.outLen ∧
        ∀ a, a < t.outLen → Memory.read d.inMem a = Memory.read t.outMem a := by
  intro s d
  refine ⟨by decide +kernel, by decide +kernel, by decide +kernel, by decide +kernel, by decide +kernel,
    by decide +kernel, by decide +kernel, by decide +kernel, ?_⟩
  obtain ⟨t, h, p⟩ := of_holds (r := runSteps 2 (beginJob .encode s))
    (fun t => t.status = .done ∧ d.inLen = t.outLen ∧ d.inMem = t.outMem) (by decide +kernel)
  simp only [decide_eq_true_eq] at p
  exact ⟨t, h, p.1, p.2.1, fun a _ => by rw [p.2.2]⟩

theorem witness_HostAccessesAreTakenAlone :
    State.reset.hostOps = [] ∧ State.hostOps { State.reset with hostOps := [.wait] } = [.wait] ∧
      HostOp.readReg 6 ≠ .wait ∧ State.hostOps { State.reset with hostOps := [.readReg 6] } = [.readReg 6] ∧
      State.reset.isBusy = false := by decide +kernel

/-- The last byte of `IN`, and the first address beyond it. -/
theorem witness_InputBytesReadBack :
    let s := { State.reset with params := { Config.params with maxInBytes := 4 }, hostOps := [.writeIn 3 0xFF] }
    let t := { s with hostOps := [.writeIn 4 0] }
    s.isBusy = false ∧ Memory.wf s.inMem ∧ s.hostOps = .writeIn 3 0xFF :: [] ∧ 3 < s.params.maxInBytes ∧
      t.hostOps = .writeIn 4 0 :: [] ∧ t.params.maxInBytes ≤ 4 := by decide +kernel

theorem witness_ResetAbandonsTheJob :
    State.hostOps { decoding with hostOps := [.reset, .wait] } = .reset :: [.wait] := by decide +kernel

/-- The least and the greatest width, both jobs, and other bits of CTRL set. -/
theorem witness_StartBeginsAFreshJob :
    let s := { State.reset with cfgWidth := 1 }
    let t := { State.reset with cfgWidth := 0xFFFFFFFF, cfgInLen := 0xFFFFFFFF }
    (s.isBusy = false ∧ 1 ≤ s.width ∧ s.width ≤ s.params.maxWidth ∧ s.inLen ≤ s.params.maxInBytes ∧
      (0xFFFFFFFD : Reg).toNat % 4 = 1) ∧
    (t.isBusy = false ∧ 1 ≤ t.width ∧ t.width = t.params.maxWidth ∧ t.inLen = t.params.maxInBytes ∧
      t.cfgOrder = false ∧ (2 : Reg).toNat % 4 = 2) := by decide +kernel

theorem witness_StartIsRefused :
    let s := { State.reset with cfgWidth := 8, cfgInLen := 5, params := { Config.params with maxInBytes := 4 } }
    ((4 : Reg).toNat % 4 = 0 ∧ (3 : Reg).toNat % 4 = 3 ∧ (1 : Reg).toNat % 4 = 1 ∧ decoding.isBusy = true) ∧
      (State.reset.isBusy = false ∧ State.reset.width = 0) ∧
      (State.params { s with params := { Config.params with maxWidth := 7 } }).maxWidth < s.width ∧
      (s.isBusy = false ∧ 1 ≤ s.width ∧ s.width ≤ s.params.maxWidth ∧ s.params.maxInBytes < s.inLen) ∧
      (State.cfgOrder { s with cfgMode := 1, cfgInLen := 4 } = true ∧
        State.inLen { s with cfgMode := 1, cfgInLen := 4 } ≤ s.params.maxInBytes) := by decide +kernel

/-- BUSY with either job at the last configuration register, and IDLE, where there are no results. -/
theorem witness_HostKeepsAwayFromARunningJob :
    decoding.isBusy = true ∧ encoding.isBusy = true ∧ 4 ≤ 4 ∧
      State.reset.isBusy = false ∧ State.reset.hasResult = false ∧ decoding.hasResult = false := by decide +kernel

theorem witness_ConfigurationReadsBack : State.reset.isBusy = false := by decide +kernel

/-- The last byte of a full `OUT`, and the last cell of a full `CA`. -/
theorem witness_ResultsAreReadable :
    let s := { State.reset with
      status := .done, outLen := 1, lines := 2 ^ 32 - 1, ca := [.black], params := { Config.params with maxOutBytes := 1 } }
    s.hasResult = true ∧ s.lines < 2 ^ 32 ∧ s.outLen < 2 ^ 32 ∧ 0 < s.outLen ∧ 0 < s.params.maxOutBytes ∧
      s.ca[0]? = some .black := by decide +kernel

end Sys2Proof.Tests
end

section
/-! The statements about the state: the changing elements (10_state.md rules R31 to R33) and the reset values
(10_state.md rule R44). -/

namespace Sys2Proof.Machine

/-! ## The least position right of another, as a bound and a member of its set -/

theorem leastAfter_le_of_ok {ok : Nat → Bool} {w a p : Nat} (hp : a < p) (hw : p ≤ w) (h : ok p = true) :
    leastAfter ok w a ≤ p := by
  by_contra! hlt
  rcases leastAfter_spec ok w a with ⟨-, -, -, hmin⟩ | ⟨-, hnone⟩
  · exact absurd h (by simp [hmin p hp hlt])
  · exact absurd h (by simp [hnone p hp hw])

theorem leastAfter_eq_or_ok (ok : Nat → Bool) (w a : Nat) :
    leastAfter ok w a = w + 1 ∨
      (a < leastAfter ok w a ∧ leastAfter ok w a ≤ w ∧ ok (leastAfter ok w a) = true) := by
  rcases leastAfter_spec ok w a with ⟨hgt, hle, hok, -⟩ | ⟨hnone, -⟩
  · exact .inr ⟨hgt, hle, hok⟩
  · exact .inl hnone

theorem leastAfter_of_le (ok : Nat → Bool) {w a : Nat} (h : w ≤ a) : leastAfter ok w a = w + 1 := by
  rcases leastAfter_eq_or_ok ok w a with hnone | ⟨hgt, hle, -⟩
  · exact hnone
  · omega

/-! ## The next changing element of a line -/

@[simp] theorem changing_iff (l : List Colour) (p : Nat) : changing l p = true ↔ cell l p ≠ cell l (p - 1) := by
  simp [changing]

theorem nextChanging_le {l : List Colour} {w a p : Nat} (hp : a < p) (hw : p ≤ w)
    (h : cell l p ≠ cell l (p - 1)) : leastAfter (changing l) w a ≤ p :=
  leastAfter_le_of_ok hp hw ((changing_iff l p).2 h)

theorem nextChanging_eq_or_changes (l : List Colour) (w a : Nat) :
    leastAfter (changing l) w a = w + 1 ∨
      (a < leastAfter (changing l) w a ∧ leastAfter (changing l) w a ≤ w ∧
        cell l (leastAfter (changing l) w a) ≠ cell l (leastAfter (changing l) w a - 1)) := by
  simpa only [changing_iff] using leastAfter_eq_or_ok (changing l) w a

/-- A line keeps its colour from a position up to the next changing element. -/
theorem cell_eq_before_nextChanging {l : List Colour} {w a p : Nat} (hp : a ≤ p) (hw : p ≤ w)
    (hlt : p < leastAfter (changing l) w a) : cell l p = cell l a := by
  induction p, hp using Nat.le_induction with
  | base => rfl
  | succ p hp ih =>
    have hsame : cell l (p + 1) = cell l p := by
      by_contra hne
      have := nextChanging_le (l := l) (by omega : a < p + 1) hw hne
      omega
    rw [hsame, ih (by omega) (by omega)]

/-! ## `b1` and `b2` on the reference line -/

/-- 10_state.md rule R31: no position of the set lies left of `b1`. -/
theorem State.b1_le_of_mem {s : State} {p : Nat} (hp : s.a0 < p) (hw : p ≤ s.width)
    (hchg : cell s.ref p ≠ cell s.ref (p - 1)) (hcol : cell s.ref p ≠ s.color) : s.b1 ≤ p :=
  leastAfter_le_of_ok hp hw (by simp [hchg, hcol])

theorem State.b1_eq_or_mem (s : State) :
    s.b1 = s.width + 1 ∨
      (s.a0 < s.b1 ∧ s.b1 ≤ s.width ∧ cell s.ref s.b1 ≠ cell s.ref (s.b1 - 1) ∧ cell s.ref s.b1 ≠ s.color) := by
  obtain hnone | ⟨hgt, hle, hok⟩ :=
    leastAfter_eq_or_ok (fun p => changing s.ref p && decide (cell s.ref p ≠ s.color)) s.width s.a0
  · exact .inl hnone
  · simp only [Bool.and_eq_true, changing_iff, decide_eq_true_eq] at hok
    exact .inr ⟨hgt, hle, hok⟩

theorem State.b2_eq_or_mem (s : State) :
    s.b2 = s.width + 1 ∨
      (s.b1 < s.b2 ∧ s.b2 ≤ s.width ∧ cell s.ref s.b2 ≠ cell s.ref (s.b2 - 1)) :=
  nextChanging_eq_or_changes s.ref s.width s.b1

theorem State.b2_eq_of_b1_eq {s : State} (h : s.b1 = s.width + 1) : s.b2 = s.width + 1 :=
  leastAfter_of_le _ (by omega)

theorem State.b1_lt_b2 {s : State} (h : s.b1 ≤ s.width) : s.b1 < s.b2 := leastAfter_gt _ h

/-- 10_state.md rule R32: changing elements alternate in colour, so the line, of the colour other than `color` from
`b1` up to `b2`, changes back to `color` at `b2`. -/
theorem State.color_at_b2 {s : State} (h : s.b2 ≤ s.width) : cell s.ref s.b2 = s.color := by
  have hb1 : cell s.ref s.b1 = invert s.color := by
    obtain hnone | ⟨-, -, -, hcol⟩ := s.b1_eq_or_mem
    · have := s.b1_le_b2
      omega
    · exact (ne_iff_eq_invert _ _).1 hcol
  obtain hnone | ⟨hlt, -, hchg⟩ := s.b2_eq_or_mem
  · omega
  have hkeeps : cell s.ref (s.b2 - 1) = cell s.ref s.b1 :=
    cell_eq_before_nextChanging (w := s.width) (by omega) (by omega) (show s.b2 - 1 < s.b2 by omega)
  calc cell s.ref s.b2 = invert (cell s.ref (s.b2 - 1)) := (ne_iff_eq_invert _ _).1 hchg
    _ = s.color := by rw [hkeeps, hb1, invert_invert]

/-- Settles O36: each of the four is a `leastAfter`, so a lower bound and a member of its set or `W + 1`; the colour at
`b2` is that changing elements alternate. -/
theorem changingElements : Obligations.ChangingElements := by
  intro s
  refine ⟨fun p => State.b1_le_of_mem, s.b1_eq_or_mem, fun p => nextChanging_le, s.b2_eq_or_mem,
    State.b2_eq_of_b1_eq, State.color_at_b2, fun h => ?_, fun p => nextChanging_le,
    nextChanging_eq_or_changes s.cur s.width s.a0, fun p => nextChanging_le,
    nextChanging_eq_or_changes s.cur s.width s.a1⟩
  exact ⟨State.a0_lt_b1 h, s.b1_le_b2, s.b2_le, State.b1_lt_b2⟩

/-! ## Reset -/

theorem coreStep_of_not_busy {s : State} (h : s.isBusy = false) : coreStep s = .next s := by
  cases hs : s.status with
  | busy j => simp [State.isBusy, hs] at h
  | idle => simp [coreStep, hs]
  | done => simp [coreStep, hs]
  | error e => simp [coreStep, hs]

theorem step_of_no_access {s : State} (h : s.hostOps = []) : step s = coreStep s := by
  simp [step, h]

theorem step_reset : step State.reset = .next State.reset := by
  rw [step_of_no_access rfl, coreStep_of_not_busy rfl]

/-- Settles O50: the registers as `State.reset` holds them, and a core without a job waits. -/
theorem resetValues : Obligations.ResetValues := by
  unfold Obligations.ResetValues
  exact ⟨rfl, rfl, rfl, rfl, rfl, rfl, rfl, rfl, rfl, rfl, rfl, rfl, rfl, rfl, rfl, rfl, rfl, rfl, step_reset⟩

end Sys2Proof.Machine
end

section
/-! The statement about the bit order of the input (20_memory.md rule R60). -/

namespace Sys2Proof.Machine

theorem State.bit_of_msbFirst {s : State} (h : s.order = false) (i : Nat) :
    s.bit i = (Memory.read s.inMem (i / 8)).getLsbD (7 - i % 8) := by
  simp [State.bit, h]

theorem State.bit_of_lsbFirst {s : State} (h : s.order = true) (i : Nat) :
    s.bit i = (Memory.read s.inMem (i / 8)).getLsbD (i % 8) := by
  simp [State.bit, h]

/-- 20_memory.md rule R60, in the latched order. -/
theorem State.bit_eq_ite_order (s : State) (i : Nat) :
    s.bit i =
      if s.order = false then (Memory.read s.inMem (i / 8)).getLsbD (7 - i % 8)
      else (Memory.read s.inMem (i / 8)).getLsbD (i % 8) := by
  split
  case isTrue h => exact State.bit_of_msbFirst h i
  case isFalse h => exact State.bit_of_lsbFirst (Bool.eq_true_of_not_eq_false h) i

/-- Settles O37: the latched order by its two values; where it is the configured one, that one is bit 0 of
`CFG_MODE`. -/
theorem inputBitOrder : Obligations.InputBitOrder := by
  intro s i
  refine ⟨s.bit_eq_ite_order i, fun hlatched => ?_⟩
  have hbit0 : s.order = s.cfgMode.getLsbD 0 := hlatched
  rw [← hbit0]
  exact s.bit_eq_ite_order i

end Sys2Proof.Machine
end

section
/-! The codebooks (30_encoding.md rules R80, R86 and R88): the code words of each context, what the bits after a
decoded string change, and the bit strings at which a codebook stops reading. -/

namespace Sys2Proof

/-! ## The code words of a context -/

/-- The code words of a context in the order of its tables. -/
def codeWords : Context → List Instr
  | .mode => modeRows.map (·.instr)
  | .run c => (runRows c).map (·.instr)

/-- The code words of a codebook, or those that both run tables hold. -/
def Book.words : Book → List Instr
  | .modes => codeWords .mode
  | .runs c => codeWords (.run c)
  | .bothRuns => extendedMakeUp.map (·.instr)

theorem mem_words_book (i : Instr) : i ∈ i.book.words := by
  cases i <;> decide

theorem extendedWords_subset (c : Colour) : Book.bothRuns.words ⊆ codeWords (.run c) := by
  cases c <;> simp [Book.words, codeWords, runRows]

theorem wellFormedIn_of_mem_codeWords {ctx : Context} : ∀ i ∈ codeWords ctx, i.wellFormedIn ctx = true := by
  match ctx with
  | .mode => decide
  | .run .white => decide
  | .run .black => decide

theorem wellFormedIn_iff_mem_codeWords {ctx : Context} {i : Instr} :
    i.wellFormedIn ctx = true ↔ i ∈ codeWords ctx := by
  refine ⟨fun h => ?_, wellFormedIn_of_mem_codeWords i⟩
  have hmem := mem_words_book i
  cases ctx with
  | mode =>
    have hbook : i.book = .modes := by simpa [Instr.wellFormedIn] using h
    rwa [hbook] at hmem
  | run c =>
    have hbook : i.book = .runs c ∨ i.book = .bothRuns := by simpa [Instr.wellFormedIn] using h
    rcases hbook with hbook | hbook <;> rw [hbook] at hmem
    · exact hmem
    · exact extendedWords_subset c hmem

/-! ## Decoding with more bits after the string -/

/-- The decoder stops where it stops: the bits after that are left in the rest. -/
theorem scan_append {e : ErrKind} {book : Codebook} {bits : List Bool} :
    (∀ i r, scan e book bits = .word i r → ∀ rest, scan e book (bits ++ rest) = .word i (r ++ rest)) ∧
      (∀ k r, scan e book bits = .dead k r → ∀ rest, scan e book (bits ++ rest) = .dead k (r ++ rest)) := by
  induction bits generalizing book with
  | nil => simp [scan]
  | cons b bits ih =>
    simp only [scan, List.cons_append]
    cases book.next b with
    | dead => simp
    | word i => simp
    | more zero one => exact ih

theorem decode_encode_alone (ctx : Context) : ∀ i ∈ codeWords ctx, decode ctx (encode i) = .word i [] := by
  match ctx with
  | .mode => decide
  | .run .white => decide
  | .run .black => decide

/-- A code word decodes to itself in its context, whatever bits follow. -/
theorem decode_encode_append {ctx : Context} {i : Instr} (h : i.wellFormedIn ctx = true) (rest : List Bool) :
    decode ctx (encode i ++ rest) = .word i rest :=
  scan_append.1 i [] (decode_encode_alone ctx i (wellFormedIn_iff_mem_codeWords.1 h)) rest

/-- No code word begins another because decoding is a function: the longer one would decode to both. -/
theorem eq_of_encode_isPrefix {ctx : Context} {i j : Instr} (hi : i.wellFormedIn ctx = true)
    (hj : j.wellFormedIn ctx = true) (h : encode i <+: encode j) : i = j := by
  obtain ⟨tail, htail⟩ := h
  have hshort : decode ctx (encode j) = .word i tail := htail ▸ decode_encode_append hi tail
  have hlong : decode ctx (encode j) = .word j [] := by simpa using decode_encode_append hj []
  exact (Decoded.word.inj (hshort.symm.trans hlong)).1

/-- Settles O3: each code word decodes to itself, so no other begins it; the longest words are read off the tables. -/
theorem codebooksArePrefixFree : Obligations.CodebooksArePrefixFree := by
  have bound : ∀ {ctx : Context} {n : Nat}, (∀ i ∈ codeWords ctx, (encode i).length ≤ n) →
      ∀ i : Instr, i.wellFormedIn ctx = true → (encode i).length ≤ n :=
    fun h i hi => h i (wellFormedIn_iff_mem_codeWords.1 hi)
  exact ⟨fun _ _ _ => eq_of_encode_isPrefix, fun _ _ rest hi => decode_encode_append hi rest,
    bound (by decide), bound (by decide), bound (by decide), by decide, by decide, by decide⟩

/-- Settles O4: values and lengths are read off the tables; the code words of a run context are its rows. -/
theorem runTablesHoldTheirCodes : Obligations.RunTablesHoldTheirCodes := by
  refine ⟨by decide, by decide, by decide, by decide, by decide, rfl, rfl, ?rows, ?words, by decide⟩
  case rows => intro c; cases c <;> decide
  case words => intro c i; rw [wellFormedIn_iff_mem_codeWords, codeWords, List.mem_map]

/-! ## The bit strings at which a codebook stops -/

/-- The paths to the leaves of a codebook: the bit strings after which no further bit is read. -/
def Codebook.stops : Codebook → List (List Bool)
  | .more zero one => zero.stops.map (false :: ·) ++ one.stops.map (true :: ·)
  | _ => [[]]

/-- A bit string begins with a stop of the codebook, or is shorter than one. -/
theorem Codebook.exists_stop (book : Codebook) (bits : List Bool) :
    ∃ p ∈ book.stops, p <+: bits ∨ bits.length < p.length := by
  induction book generalizing bits with
  | dead => exact ⟨[], by simp [Codebook.stops], .inl List.nil_prefix⟩
  | word i => exact ⟨[], by simp [Codebook.stops], .inl List.nil_prefix⟩
  | more zero one ihzero ihone =>
    match bits with
    | [] =>
      obtain ⟨p, hp, -⟩ := ihzero []
      exact ⟨false :: p, by simp [Codebook.stops, hp], .inr (by simp)⟩
    | false :: bits =>
      obtain ⟨p, hp, h⟩ := ihzero bits
      exact ⟨false :: p, by simp [Codebook.stops, hp], by simpa using h⟩
    | true :: bits =>
      obtain ⟨p, hp, h⟩ := ihone bits
      exact ⟨true :: p, by simp [Codebook.stops, hp], by simpa using h⟩

/-! ## Leaving a bit string -/

/-- The bit strings that agree with a given one up to their last bit, and differ from it there. -/
def departures : List Bool → List (List Bool)
  | [] => []
  | b :: w => [!b] :: (departures w).map (b :: ·)

/-- A string of the length of `w` is another string exactly when it leaves `w` at some bit. -/
theorem ne_iff_departs {w x : List Bool} (h : x.length = w.length) :
    x ≠ w ↔ ∃ d ∈ departures w, d <+: x := by
  induction w generalizing x with
  | nil => simpa [departures] using h
  | cons b w ih =>
    cases x with
    | nil => simp at h
    | cons c x =>
      have hx := ih (x := x) (by simpa using h)
      by_cases hc : c = b
      · subst hc
        simp [departures, hx]
      · simp [departures, Bool.eq_not_of_ne hc]

/-! ## The mode codebook -/

/-- The four strings at which the mode codebook leaves the start of EOFB (30_encoding.md rule R89). -/
def eofbFailures : List (List Bool) :=
  [List.replicate 7 false ++ [true], List.replicate 9 false ++ [true], List.replicate 10 false ++ [true],
    List.replicate 12 false]

open Machine (eol)

theorem decode_eofbFailure {p : List Bool} (hp : p ∈ eofbFailures) (rest : List Bool) :
    decode .mode (p ++ rest) = .dead .invalidEofb rest := by
  have alone : ∀ p ∈ eofbFailures, decode .mode p = .dead .invalidEofb [] := by decide
  exact scan_append.2 _ [] (alone p hp) rest

theorem decode_eol_departure {d : List Bool} (hd : d ∈ departures eol) (rest : List Bool) :
    decode .mode (eol ++ d ++ rest) = .dead .invalidEofb rest := by
  have alone : ∀ d ∈ departures eol, decode .mode (eol ++ d) = .dead .invalidEofb [] := by decide
  exact scan_append.2 _ [] (alone d hd) rest

/-- 30_encoding.md rule R89: where the mode codebook stops. -/
theorem modeBook_stops : ∀ p ∈ modeBook.stops, p.length ≤ 24 ∧
    ((∃ i ∈ codeWords .mode, p = encode i) ∨ p ∈ eofbFailures ∨ ∃ d ∈ departures eol, p = eol ++ d) := by
  decide

theorem exists_not_eol_of_departure {d bits : List Bool} (hd : d ∈ departures eol)
    (hlen : 24 ≤ bits.length) (h : eol ++ d <+: bits) :
    ∃ x : List Bool, x.length = 12 ∧ x ≠ eol ∧ eol ++ x <+: bits := by
  have short : ∀ d ∈ departures eol, d.length ≤ 12 := by decide
  obtain ⟨rest, rfl⟩ := h
  have heol : eol.length = 12 := by decide
  have hx : ((d ++ rest).take 12).length = 12 := by
    simp only [List.length_append, heol, List.length_take] at hlen ⊢
    omega
  refine ⟨(d ++ rest).take 12, hx, (ne_iff_departs (hx.trans heol.symm)).2 ⟨d, hd, ?_⟩, ?_⟩
  · exact List.prefix_take_iff.2 ⟨List.prefix_append d rest, short d hd⟩
  · rw [List.append_assoc]
    exact (List.prefix_append_right_inj eol).2 (List.take_prefix 12 _)

/-- 30_encoding.md rule R89: 24 bits are enough to read a mode code, or to see that there is none. -/
theorem mode_coverage {bits : List Bool} (hlen : 24 ≤ bits.length) :
    (∃ i rest, decode .mode bits = .word i rest) ∨ (∃ p ∈ eofbFailures, p <+: bits) ∨
      ∃ x : List Bool, x.length = 12 ∧ x ≠ eol ∧ eol ++ x <+: bits := by
  obtain ⟨p, hp, hbits⟩ := modeBook.exists_stop bits
  obtain ⟨hshort, hkind⟩ := modeBook_stops p hp
  have hpre : p <+: bits := hbits.resolve_right (by omega)
  rcases hkind with ⟨i, hi, rfl⟩ | hfail | ⟨d, hd, rfl⟩
  · obtain ⟨rest, rfl⟩ := hpre
    exact .inl ⟨i, rest, decode_encode_append (wellFormedIn_of_mem_codeWords i hi) rest⟩
  · exact .inr (.inl ⟨p, hfail, hpre⟩)
  · exact .inr (.inr (exists_not_eol_of_departure hd hlen hpre))

/-- Settles O6: the dead strings by where they leave EOFB, the coverage by the stops of the mode codebook, and the
Extensions as code words. -/
theorem modeCodebookCoverage : Obligations.ModeCodebookCoverage := by
  refine ⟨fun p hp => decode_eofbFailure hp, fun x rest hlen hx => ?_, fun bits => mode_coverage,
    decode_encode_append (i := .ext2d) rfl, decode_encode_append (i := .ext1d) rfl, fun _ => rfl, fun _ => rfl⟩
  obtain ⟨d, hd, tail, rfl⟩ := (ne_iff_departs (hlen.trans (by decide : 12 = eol.length))).1 hx
  exact ⟨tail ++ rest, by simpa using decode_eol_departure hd (tail ++ rest)⟩

end Sys2Proof
end

section
/-! The statement about the Vertical codes (43_mode_decoder.md rules R159 to R166). -/

namespace Sys2Proof.Machine

theorem encode_verticalCode : ∀ code ∈ verticalCodes, encode code.1 = code.2.2 := by decide

/-- Each Vertical code is `VERT` of its offset (30_encoding.md rule R83). -/
theorem exec_verticalCode {code : Instr × Int × List Bool} (h : code ∈ verticalCodes) (s : State) :
    exec code.1 s = vertical code.2.1 s := by
  simp only [verticalCodes, List.mem_cons, List.not_mem_nil, or_false] at h
  rcases h with rfl | rfl | rfl | rfl | rfl | rfl | rfl <;> rfl

/-- Settles O9: `vertical` is out of bounds or fills to `a1`, and the two exclude each other. -/
theorem verticalMovesToA1 : Obligations.VerticalMovesToA1 := by
  intro code hcode s
  have hbits := encode_verticalCode code hcode
  rw [exec_verticalCode hcode s]
  obtain ⟨hout, hraise⟩ | ⟨b, hb, hgt, hle, hfill⟩ := vertical_cases code.2.1 s
  · exact ⟨hbits, fun a1 ha1 hgt hle => by omega, fun _ => hraise⟩
  · refine ⟨hbits, fun a1 ha1 _ _ => ?_, fun hout => by omega⟩
    obtain rfl : a1 = b := by omega
    exact hfill

end Sys2Proof.Machine
end

section
/-! The bit strings `bin` gives (00_scope.md rule R12) and those `bitsFrom` reads, place by place and byte by
byte. -/

namespace Sys2Proof

@[simp] theorem bin_length (v n : Nat) : (bin v n).length = n := by
  induction n with
  | zero => rfl
  | succ n ih => simp [bin, ih]

/-- `bin` reads no bit of the number beyond its length. -/
theorem bin_mod_two_pow (v : Nat) {n m : Nat} (h : n ≤ m) : bin (v % 2 ^ m) n = bin v n := by
  induction n with
  | zero => rfl
  | succ n ih =>
    have hbit : (v % 2 ^ m).testBit n = v.testBit n := by
      rw [Nat.testBit_mod_two_pow, decide_eq_true (Nat.lt_of_succ_le h), Bool.true_and]
    rw [bin, bin, hbit, ih (by omega)]

namespace Machine

theorem State.bitsFrom_eq_map (s : State) (p n : Nat) :
    s.bitsFrom p n = (List.range n).map fun k => s.bit (p + k) := by
  induction n generalizing p with
  | zero => rfl
  | succ n ih =>
    simp only [State.bitsFrom, ih, List.range_succ_eq_map, List.map_cons, List.map_map, Nat.add_zero]
    refine congrArg _ (List.map_congr_left fun k _ => ?_)
    show s.bit (p + 1 + k) = s.bit (p + (k + 1))
    rw [Nat.add_right_comm, Nat.add_assoc]

theorem State.bitsFrom_getElem? (s : State) (p : Nat) {n k : Nat} (h : k < n) :
    (s.bitsFrom p n)[k]? = some (s.bit (p + k)) := by
  simp [State.bitsFrom_eq_map, h]

theorem State.bitsFrom_add (s : State) (p m n : Nat) :
    s.bitsFrom p (m + n) = s.bitsFrom p m ++ s.bitsFrom (p + m) n := by
  simp only [State.bitsFrom_eq_map, List.range_add, List.map_append, List.map_map, Function.comp_def,
    Nat.add_assoc]

/-- Most significant bit first, the eight bits of the input from a byte's first one are that byte's bits. -/
theorem State.bitsFrom_byte {s : State} (h : s.order = false) (a : Nat) :
    s.bitsFrom (8 * a) 8 = byteBits (Memory.read s.inMem a) := by
  rw [State.bitsFrom_eq_map, byteBits]
  refine List.map_congr_left fun j hj => ?_
  have hj8 : j < 8 := List.mem_range.1 hj
  rw [State.bit_of_msbFirst h, show (8 * a + j) / 8 = a by omega, show (8 * a + j) % 8 = j by omega]

theorem State.bitsFrom_bytes {s : State} (h : s.order = false) (n : Nat) :
    s.bitsFrom 0 (8 * n) = (List.range n).flatMap fun a => byteBits (Memory.read s.inMem a) := by
  induction n with
  | zero => rfl
  | succ n ih =>
    rw [Nat.mul_succ, State.bitsFrom_add, ih, Nat.zero_add, State.bitsFrom_byte h, List.range_succ]
    simp

/-- Most significant bit first, the stream at the start of the input is the input's bytes, bit by bit. -/
theorem State.stream_eq_bytes {s : State} (horder : s.order = false) (hpos : s.pos = 0) :
    s.stream = (List.range s.inLen).flatMap fun a => byteBits (Memory.read s.inMem a) := by
  rw [State.stream, State.bitsLeft, hpos, Nat.sub_zero, State.bitsFrom_bytes horder]

end Machine
end Sys2Proof
end

section
/-! The operations of the packer, FLUSH, DONE and WRITE_BITS (40_bitio.md rules R107 to R109), as what they append
to the bits written. -/

namespace Sys2Proof.Machine

theorem State.flush_of_acc_nil {s : State} (h : s.acc = []) : s.flush = some s := by
  rw [State.flush_eq (by simp [h]), if_pos h]

theorem State.flush_of_room {s : State} (ha : s.acc.length < 8) (hne : s.acc ≠ [])
    (hroom : s.outLen < s.params.maxOutBytes) :
    s.flush = some { s with
      acc := [], outMem := Memory.write s.outMem s.outLen s.lastByte, outLen := s.outLen + 1 } := by
  rw [State.flush_eq ha, if_neg hne]
  exact State.appendByte_some.2 ⟨hroom, rfl⟩

/-- FLUSH writes the zero bits up to the next whole byte. -/
theorem State.flush_outBits {s t : State} (ha : s.acc.length < 8) (hw : Memory.wf s.outMem)
    (h : s.flush = some t) :
    t.outBits = s.outBits ++ List.replicate ((8 - s.acc.length) % 8) false := by
  unfold State.flush at h
  split at h
  case isTrue h0 => simp [← Option.some.inj h, h0]
  case isFalse h0 => rw [State.writeBits_outBits hw h, Nat.mod_eq_of_lt (by omega)]

theorem doneOp_next {s t : State} : doneOp s = .next t ↔ s.flush = some t := by
  simp [doneOp, orOverflow_next]

theorem writeBitsOp_next {value count : Nat} {s t : State} :
    writeBitsOp value count s = .next t ↔ count ≤ 16 ∧ s.writeBits (bin value count) = some t := by
  by_cases h : count ≤ 16 <;> simp [writeBitsOp, Config.writeMax, h, orOverflow_next]

theorem writeBitsOp_refused {value count : Nat} (h : 16 < count) (s : State) :
    writeBitsOp value count s = .refused .writeTooWide :=
  if_neg (Nat.not_le.2 h)

/-- WRITE_BITS does not look at the bits of the value above the count. -/
theorem writeBitsOp_mod (value count : Nat) (s : State) :
    writeBitsOp (value % 2 ^ count) count s = writeBitsOp value count s := by
  simp only [writeBitsOp, bin_mod_two_pow value le_rfl]

/-- One more WRITE_BITS(value, count) after what was written so far, unless that was refused. -/
def thenWriteBits (r : Result) (w : Nat × Nat) : Result :=
  match r with
  | .next s => writeBitsOp w.1 w.2 s
  | r => r

theorem thenWriteBits_next {r : Result} {w : Nat × Nat} {t : State} :
    thenWriteBits r w = .next t ↔ ∃ s, r = .next s ∧ writeBitsOp w.1 w.2 s = .next t := by
  cases r <;> simp [thenWriteBits]

/-- A sequence of WRITE_BITS that is accepted is one WRITE of all their bits. -/
theorem writeBits_of_foldl_thenWriteBits {words : List (Nat × Nat)} {r : Result} {t : State}
    (h : words.foldl thenWriteBits r = .next t) :
    ∃ s, r = .next s ∧ s.writeBits (words.flatMap fun w => bin w.1 w.2) = some t := by
  induction words generalizing r with
  | nil => exact ⟨t, h, rfl⟩
  | cons w words ih =>
    obtain ⟨u, hu, htail⟩ := ih h
    obtain ⟨s, hs, hhead⟩ := thenWriteBits_next.1 hu
    refine ⟨s, hs, ?_⟩
    rw [List.flatMap_cons, State.writeBits_append, (writeBitsOp_next.1 hhead).2, Option.bind_some, htail]

end Sys2Proof.Machine
end

section
/-! The statements about the unpacker and the packer (40_bitio.md). -/

namespace Sys2Proof.Machine

/-- Settles O41: the writes append their bits to an empty output, DONE appends the padding, and the bytes of `OUT`
read from `IN` are the bits of the output. -/
theorem writerThenReaderIsTheIdentity : Obligations.WriterThenReaderIsTheIdentity := by
  intro s t u words hacc hlen hwf _ hwrites hdone hfits
  obtain ⟨v, hv, hbits⟩ := writeBits_of_foldl_thenWriteBits hwrites
  obtain rfl : s = v := Host.Outcome.next.inj hv
  have hflush := doneOp_next.1 hdone
  have hframe := State.writeBits_frame hbits
  have hshort : t.acc.length < 8 := hframe.acc (by simp [hacc])
  refine ⟨(8 - t.acc.length) % 8, Nat.mod_lt _ (by decide), ?_⟩
  have hempty : s.outBits = [] := by simp [State.outBits, hacc, hlen]
  have hwritten : u.outBits =
      words.flatMap (fun w => bin w.1 w.2) ++ List.replicate ((8 - t.acc.length) % 8) false := by
    rw [State.flush_outBits hshort (hframe.wf hwf) hflush, State.writeBits_outBits hwf hbits, hempty,
      List.nil_append]
  have hread : State.stream
      { u with inMem := u.outMem, cfgInLen := BitVec.ofNat 32 u.outLen, order := false, pos := 0 } =
        u.outBits := by
    rw [State.stream_eq_bytes rfl rfl, State.outBits, State.flush_acc hshort hflush, List.append_nil,
      State.inLen, BitVec.toNat_ofNat, Nat.mod_eq_of_lt hfits]
  simp only [hread, hwritten, bin_mod_two_pow _ le_rfl]

/-- Settles O38: NEXT and ReadBit by whether `pos` is within the input, PEEK by the places of `bitsFrom`. -/
theorem unpackerDeliversTheInput : Obligations.UnpackerDeliversTheInput := by
  intro s
  refine ⟨fun hin => ?_, fun hend => ?_, fun n hn => ?_, fun n hn => if_neg (Nat.not_le.2 hn)⟩
  · have hnext : s.next = some (s.bit s.pos, { s with pos := s.pos + 1 }) := if_pos hin
    exact ⟨hnext, by rw [State.readBit, hnext]⟩
  · have hnext : s.next = none := if_neg (Nat.not_lt.2 hend)
    exact ⟨hnext, by rw [State.readBit, hnext]⟩
  · refine ⟨s.peek n, if_pos hn, s.bitsFrom_length _ _, fun k hk => ?_⟩
    exact s.bitsFrom_getElem? _ (by simpa [State.peek] using hk)

/-- Settles O39: the bits fit, and writing them appends them within the packer's frame. -/
theorem writeBitsAppendsTheLowBits : Obligations.WriteBitsAppendsTheLowBits := by
  intro value count s
  refine ⟨fun hwide => writeBitsOp_refused hwide s, fun hcount hacc hwf hroom => ?_⟩
  obtain ⟨t, ht⟩ := (State.writeBits_isSome hacc (by omega) (bin value count)).2 (by rwa [bin_length])
  have hframe := State.writeBits_frame ht
  exact ⟨(writeBitsOp_mod value count s).symm, t, writeBitsOp_next.2 ⟨hcount, ht⟩,
    State.writeBits_outBits hwf ht, hframe.acc hacc, hframe.eq⟩

/-- Settles O40: by whether a byte is in progress; FLUSH leaves none, so that a second one does nothing. -/
theorem flushIsIdempotent : Obligations.FlushIsIdempotent := by
  intro s hacc hwf hroom
  by_cases hnil : s.acc = []
  · have hflush := State.flush_of_acc_nil hnil
    exact ⟨s, doneOp_next.2 hflush, hflush, hnil, hflush, fun _ => rfl, fun hne => absurd hnil hne⟩
  · have hflush := State.flush_of_room hacc hnil (hroom hnil)
    refine ⟨_, doneOp_next.2 hflush, hflush, rfl, State.flush_of_acc_nil rfl, fun h => absurd h hnil,
      fun _ => ⟨rfl, ?_, fun a ha => Memory.read_write_other _ _ _ _ ha⟩⟩
    have hpad : (8 - s.acc.length) % 8 = 8 - s.acc.length := by
      have := List.length_pos_iff.2 hnil
      omega
    rw [State.flush_outBits hacc hwf hflush, hpad]

end Sys2Proof.Machine
end

section
/-! The statement about RunCodes (41_runlength.md rules R130 and R131): the loop as a recursion on the run length, and
the row of the table that each of its values has. -/

namespace Sys2Proof.Machine

/-! ## The values of a table -/

theorem runRows_values (c : Colour) :
    (runRows c).map (·.value) = List.range 64 ++ (List.range 40).map (fun k => 64 * (k + 1)) := by
  cases c <;> decide

/-- A value of the table has a code word. -/
theorem codeOfValue_of_mem {c : Colour} {v : Nat} (h : v ∈ (runRows c).map (·.value)) :
    ∃ r ∈ runRows c, r.value = v ∧ codeOfValue c v = [r.instr] := by
  obtain ⟨r₀, hr₀, hv⟩ := List.mem_map.1 h
  obtain ⟨r, hr⟩ : ∃ r, (runRows c).find? (fun r => Nat.beq r.value v) = some r :=
    Option.isSome_iff_exists.1 (List.find?_isSome.2 ⟨r₀, hr₀, Nat.beq_eq ▸ hv⟩)
  have hvalue : Nat.beq r.value v = true := List.find?_some (p := fun r : RunRow => Nat.beq r.value v) hr
  exact ⟨r, List.mem_of_find?_eq_some hr, Nat.eq_of_beq_eq_true hvalue, by simp [codeOfValue, hr]⟩

theorem codeOfValue_terminating (c : Colour) {n : Nat} (h : n < 64) :
    ∃ r ∈ runRows c, r.value = n ∧ codeOfValue c n = [r.instr] := by
  refine codeOfValue_of_mem ?_
  rw [runRows_values]
  exact List.mem_append_left _ (List.mem_range.2 h)

/-- The largest make-up value that is at most `n`, for `n` from 64 on. -/
def largestMakeUp (n : Nat) : Nat := min 2560 (64 * (n / 64))

theorem largestMakeUp_bounds {n : Nat} (h : 64 ≤ n) : 64 ≤ largestMakeUp n ∧ largestMakeUp n ≤ n := by
  unfold largestMakeUp
  omega

theorem codeOfValue_makeUp (c : Colour) {n : Nat} (h : 64 ≤ n) :
    ∃ r ∈ runRows c, r.value = largestMakeUp n ∧ codeOfValue c (largestMakeUp n) = [r.instr] := by
  refine codeOfValue_of_mem ?_
  rw [runRows_values]
  refine List.mem_append_right _ (List.mem_map.2 ⟨min 40 (n / 64) - 1, List.mem_range.2 ?_, ?_⟩)
  · omega
  · unfold largestMakeUp
    omega

/-! ## The recursion of RunCodes -/

/-- The loop does not depend on its fuel once that is at least `n / 64`. -/
theorem runCodesLoop_fuel (c : Colour) {f g n : Nat} (hf : n / 64 ≤ f) (hg : n / 64 ≤ g) :
    runCodesLoop c f n = runCodesLoop c g n := by
  induction f generalizing g n with
  | zero =>
    cases g with
    | zero => rfl
    | succ g => rw [runCodesLoop, runCodesLoop, if_neg (by omega)]
  | succ f ih =>
    cases g with
    | zero => rw [runCodesLoop, runCodesLoop, if_neg (by omega)]
    | succ g =>
      rw [runCodesLoop, runCodesLoop]
      split
      · rw [ih (g := g) (by omega) (by omega)]
      · rfl

theorem runCodes_of_lt (c : Colour) {n : Nat} (h : n < 64) : runCodes c n = codeOfValue c n := by
  rw [runCodes, Nat.div_eq_of_lt h, runCodesLoop]

theorem runCodes_of_ge (c : Colour) {n : Nat} (h : 64 ≤ n) :
    runCodes c n = codeOfValue c (largestMakeUp n) ++ runCodes c (n - largestMakeUp n) := by
  obtain ⟨fuel, hfuel⟩ : ∃ fuel, n / 64 = fuel + 1 := ⟨n / 64 - 1, by omega⟩
  have := largestMakeUp_bounds h
  rw [runCodes, hfuel, runCodesLoop, if_pos h, ← largestMakeUp, runCodes,
    runCodesLoop_fuel c (by omega : (n - largestMakeUp n) / 64 ≤ fuel) le_rfl]

/-- Settles O44: one turn of the loop, and the row its value has. -/
theorem runCodesIsGreedy : Obligations.RunCodesIsGreedy := by
  intro c n
  refine ⟨fun hlt => ?_, fun hge => ?_, rfl⟩
  · rw [runCodes_of_lt c hlt]
    exact codeOfValue_terminating c hlt
  · obtain ⟨r, hr, hvalue, hcode⟩ := codeOfValue_makeUp c hge
    exact ⟨r, hr, hvalue, by rw [runCodes_of_ge c hge, hcode, hvalue, List.singleton_append]⟩

end Sys2Proof.Machine
end

section
/-! The transient phase of a Horizontal pair (10_state.md rule R37): what does not depend on it, among that the close of
the pair. -/

namespace Sys2Proof.Machine

/-- The state in another phase of a Horizontal pair. -/
def State.setPhase (s : State) (ph : Phase) : State := { s with phase := ph }

theorem State.bitsFrom_setPhase (s : State) (ph : Phase) (p n : Nat) :
    (s.setPhase ph).bitsFrom p n = s.bitsFrom p n := by
  induction n generalizing p with
  | zero => rfl
  | succ n ih => rw [State.bitsFrom, State.bitsFrom, ih]; rfl

@[simp] theorem State.stream_setPhase (s : State) (ph : Phase) : (s.setPhase ph).stream = s.stream :=
  s.bitsFrom_setPhase ph s.pos s.bitsLeft

theorem State.readTo_setPhase (s : State) (ph : Phase) (rest : List Bool) :
    (s.setPhase ph).readTo rest = (s.readTo rest).setPhase ph := by
  rw [State.readTo, State.stream_setPhase]
  rfl

theorem State.appendByte_setPhase (s : State) (ph : Phase) (v : Byte) :
    (s.setPhase ph).appendByte v = (s.appendByte v).map (·.setPhase ph) := by
  rw [State.appendByte, State.appendByte, apply_ite (Option.map _)]
  rfl

theorem State.writeBit_setPhase (s : State) (ph : Phase) (b : Bool) :
    (s.setPhase ph).writeBit b = (s.writeBit b).map (·.setPhase ph) := by
  rw [State.writeBit, State.writeBit, apply_ite (Option.map _)]
  exact ite_congr rfl (fun _ => State.appendByte_setPhase { s with acc := [] } ph _) (fun _ => rfl)

theorem State.writeBits_setPhase (s : State) (ph : Phase) (bits : List Bool) :
    (s.setPhase ph).writeBits bits = (s.writeBits bits).map (·.setPhase ph) := by
  induction bits generalizing s with
  | nil => rfl
  | cons b bits ih =>
    rw [State.writeBits, State.writeBits, State.writeBit_setPhase]
    cases s.writeBit b with
    | none => rfl
    | some t => exact ih t

theorem State.finalise_setPhase (s : State) (ph : Phase) :
    (s.setPhase ph).finalise = s.finalise.map (·.setPhase ph) := by
  have flush : (s.setPhase ph).flush = s.flush.map (·.setPhase ph) := by
    rw [State.flush, State.flush, State.writeBits_setPhase, apply_ite (Option.map _)]
    rfl
  rw [State.finalise, State.finalise, flush, apply_ite (Option.map _)]
  rfl

/-- 60_exceptions.md rule R201: an error discards the transient state. -/
theorem raiseError_setPhase (e : ErrKind) (s : State) (ph : Phase) :
    raiseError e (s.setPhase ph) = raiseError e s := by
  rw [raiseError, raiseError, State.finalise_setPhase]
  cases s.finalise <;> rfl

theorem horizontal_setPhase (r1 r2 : Nat) (s : State) (ph : Phase) :
    horizontal r1 r2 (s.setPhase ph) = horizontal r1 r2 s := by
  simp only [horizontal, raiseError_setPhase]
  rfl

end Sys2Proof.Machine
end

section
/-! Reading a run back (41_runlength.md rules R126, R127 and R132): what one code word does to an open run, the code
words of a whole run, and the step that reads them. -/

namespace Sys2Proof.Machine

/-! ## What a run code does to the open run -/

/-- The phase with `v` pixels added to the run that is being read (41_runlength.md rule R127). -/
def Phase.addToRun (v : Nat) : Phase → Phase
  | .mode => .mode
  | .run1 tot => .run1 (tot + v)
  | .run2 r1 tot => .run2 r1 (tot + v)

/-- The state with `v` pixels added to the run that is being read. -/
def State.addToRun (s : State) (v : Nat) : State := s.setPhase (s.phase.addToRun v)

/-- What a terminating code does once the run is `n` pixels longer: the first run is followed by the second, and the
second closes the pair. -/
def closeRun (n : Nat) (s : State) : Result :=
  match s.phase with
  | .mode => .refused .runCodeOutsideRun
  | .run1 tot => .next { s with phase := .run2 (tot + n) 0 }
  | .run2 r1 tot => horizontal r1 (tot + n) s

theorem closeRun_addToRun (v n : Nat) (s : State) : closeRun n (s.addToRun v) = closeRun (v + n) s := by
  unfold closeRun State.addToRun
  cases h : s.phase with
  | mode => rfl
  | run1 tot => simp [State.setPhase, Phase.addToRun, Nat.add_assoc]
  | run2 r1 tot =>
    show horizontal r1 (tot + v + n) (s.setPhase _) = horizontal r1 (tot + (v + n)) s
    rw [horizontal_setPhase, Nat.add_assoc]

@[simp] theorem State.context_addToRun (s : State) (v : Nat) : (s.addToRun v).context = s.context := by
  unfold State.context State.addToRun
  cases h : s.phase <;> rfl

@[simp] theorem State.stream_addToRun (s : State) (v : Nat) : (s.addToRun v).stream = s.stream :=
  s.stream_setPhase _

theorem State.readTo_addToRun (s : State) (v : Nat) (rest : List Bool) :
    (s.addToRun v).readTo rest = (s.readTo rest).addToRun v :=
  s.readTo_setPhase _ rest

@[simp] theorem State.context_readTo (s : State) (rest : List Bool) : (s.readTo rest).context = s.context := rfl

/-- In a run of colour `c`, a row of the table of `c` adds its value, or ends the run with it. -/
theorem exec_runRow_of_context {c : Colour} {r : RunRow} {s : State} (hr : r ∈ runRows c)
    (hctx : s.context = .run c) :
    exec r.instr s = if r.value < 64 then closeRun r.value s else .next (s.addToRun r.value) := by
  obtain ⟨table, htable, -, hexec⟩ := exec_runRow c r hr
  rw [hexec]
  cases h : s.phase with
  | mode => simp [State.context, h] at hctx
  | run1 tot =>
    obtain rfl : s.color = c := by simpa [State.context, h] using hctx
    simp [runCode, closeRun, State.addToRun, State.setPhase, Phase.addToRun, h, htable]
  | run2 r1 tot =>
    obtain rfl : invert s.color = c := by simpa [State.context, h] using hctx
    simp [runCode, closeRun, State.addToRun, State.setPhase, Phase.addToRun, h, htable]

/-- Reading a row of the open run's table: its bits are consumed, then its meaning runs. -/
theorem decodeStep_runRow {c : Colour} {r : RunRow} {s : State} {rest : List Bool} (hr : r ∈ runRows c)
    (hctx : s.context = .run c) (hstream : s.stream = encode r.instr ++ rest) :
    decodeStep s = afterCode (exec r.instr (s.readTo rest)) := by
  have hmem : r.instr ∈ codeWords (.run c) := List.mem_map_of_mem hr
  rw [decodeStep_eq, hctx, hstream, decode_encode_append (wellFormedIn_of_mem_codeWords _ hmem)]

theorem phase_ne_mode_of_context {s : State} {c : Colour} (h : s.context = .run c) : s.phase ≠ .mode := by
  intro hp
  simp [State.context, hp] at h

theorem afterCode_of_pair {u : State} (hbusy : u.status = .busy .decode) (hphase : u.phase ≠ .mode) :
    afterCode (.next u) = decodeStep u := by
  rw [afterCode, if_neg (not_not.2 hbusy), if_pos hphase]

theorem decodeStep_terminating {c : Colour} {r : RunRow} {s : State} {rest : List Bool} (hr : r ∈ runRows c)
    (hlt : r.value < 64) (hctx : s.context = .run c) (hstream : s.stream = encode r.instr ++ rest) :
    decodeStep s = afterCode (closeRun r.value (s.readTo rest)) := by
  rw [decodeStep_runRow hr hctx hstream, exec_runRow_of_context hr (s.context_readTo rest ▸ hctx), if_pos hlt]

theorem decodeStep_makeUp {c : Colour} {r : RunRow} {s : State} {rest : List Bool} (hr : r ∈ runRows c)
    (hge : 64 ≤ r.value) (hbusy : s.status = .busy .decode) (hctx : s.context = .run c)
    (hstream : s.stream = encode r.instr ++ rest) :
    decodeStep s = decodeStep ((s.readTo rest).addToRun r.value) := by
  have hnext : ((s.readTo rest).addToRun r.value).context = .run c := by simpa using hctx
  rw [decodeStep_runRow hr hctx hstream, exec_runRow_of_context hr (s.context_readTo rest ▸ hctx),
    if_neg (Nat.not_lt.2 hge)]
  exact afterCode_of_pair hbusy (phase_ne_mode_of_context hnext)

/-- Reading on is reading further. -/
theorem State.readTo_readTo {s : State} {mid rest : List Bool} (hmid : mid <:+ s.stream) (hrest : rest <:+ mid) :
    (s.readTo mid).readTo rest = s.readTo rest := by
  have h1 := hmid.length_le
  have h2 := hrest.length_le
  have hpos : ((s.readTo mid).readTo rest).pos = (s.readTo rest).pos := by
    show s.pos + (s.stream.length - mid.length) + ((s.readTo mid).stream.length - rest.length) =
      s.pos + (s.stream.length - rest.length)
    rw [State.readTo_stream hmid]
    omega
  show { s with pos := ((s.readTo mid).readTo rest).pos } = s.readTo rest
  rw [hpos]
  rfl

/-! ## Reading the code words of a run -/

/-- The code words of a run of `n` pixels of colour `c`: make-up codes in any order, then a terminating code, with
values that add up to `n` (41_runlength.md rules R126 and R127). -/
inductive CodesOfRun (c : Colour) : Nat → List Instr → Prop
  | terminating {r : RunRow} (mem : r ∈ runRows c) (lt : r.value < 64) : CodesOfRun c r.value [r.instr]
  | makeUp {r : RunRow} {n : Nat} {codes : List Instr} (mem : r ∈ runRows c) (ge : 64 ≤ r.value)
      (more : CodesOfRun c n codes) : CodesOfRun c (r.value + n) (r.instr :: codes)

/-- A decode step in an open run of colour `c` reads all code words of a run, and goes on after it. -/
theorem decodeStep_codesOfRun {c : Colour} {n : Nat} {codes : List Instr} (hrun : CodesOfRun c n codes) {s : State}
    {rest : List Bool} (hbusy : s.status = .busy .decode) (hctx : s.context = .run c)
    (hstream : s.stream = codes.flatMap encode ++ rest) :
    decodeStep s = afterCode (closeRun n (s.readTo rest)) := by
  induction hrun generalizing s with
  | @terminating r hr hlt => exact decodeStep_terminating hr hlt hctx (by simpa using hstream)
  | @makeUp r n codes hr hge _ ih =>
    obtain ⟨mid, hmid⟩ : ∃ mid, mid = codes.flatMap encode ++ rest := ⟨_, rfl⟩
    have hsplit : s.stream = encode r.instr ++ mid := by rw [hstream, hmid, List.flatMap_cons, List.append_assoc]
    have hsuffix : mid <:+ s.stream := ⟨_, hsplit.symm⟩
    have hctx' : ((s.readTo mid).addToRun r.value).context = .run c := by simpa using hctx
    have hstream' : ((s.readTo mid).addToRun r.value).stream = mid := by
      rw [State.stream_addToRun, State.readTo_stream hsuffix]
    have htail := ih (s := (s.readTo mid).addToRun r.value) hbusy hctx' (hstream'.trans hmid)
    rw [decodeStep_makeUp hr hge hbusy hctx hsplit, htail, State.readTo_addToRun,
      State.readTo_readTo hsuffix ⟨_, hmid.symm⟩, closeRun_addToRun]

/-! ## The code words of EmitRun -/

theorem codesOfRun_runCodes (c : Colour) (n : Nat) : CodesOfRun c n (runCodes c n) := by
  induction n using Nat.strong_induction_on with
  | _ n ih =>
    obtain ⟨hterminating, hmakeUp, -⟩ := runCodesIsGreedy c n
    rcases Nat.lt_or_ge n 64 with hlt | hge
    · obtain ⟨r, hr, rfl, hcodes⟩ := hterminating hlt
      exact hcodes ▸ .terminating hr hlt
    · obtain ⟨r, hr, hvalue, hcodes⟩ := hmakeUp hge
      obtain ⟨hlow, hhigh⟩ : 64 ≤ r.value ∧ r.value ≤ n := hvalue ▸ largestMakeUp_bounds hge
      have hmore := CodesOfRun.makeUp hr hlow (ih (n - r.value) (by omega))
      rwa [Nat.add_sub_cancel' hhigh, ← hcodes] at hmore

/-- 41_runlength.md rule R132: a decode step in an open run reads the bits of EmitRun as `n`. -/
theorem decodeStep_runBits {c : Colour} {n : Nat} {s : State} {rest : List Bool} (hbusy : s.status = .busy .decode)
    (hctx : s.context = .run c) (hstream : s.stream = runBits c n ++ rest) :
    decodeStep s = afterCode (closeRun n (s.readTo rest)) :=
  decodeStep_codesOfRun (codesOfRun_runCodes c n) hbusy hctx hstream

/-- Settles O23: the code words of EmitRun are those of one run of `n` pixels, in the first run and in the second. -/
theorem runBitsReadBack : Obligations.RunBitsReadBack := by
  intro s n rest hbusy
  refine ⟨fun hphase hstream => ?_, fun r1 hphase hstream => ?_⟩
  · have hctx : s.context = .run s.color := by rw [State.context, hphase]
    have hclose : closeRun n (s.readTo rest) = .next { s.readTo rest with phase := .run2 n 0 } := by
      simp [closeRun, State.readTo, hphase]
    refine ⟨?_, State.readTo_stream ⟨_, hstream.symm⟩⟩
    rw [decodeStep_runBits hbusy hctx hstream, hclose]
    exact afterCode_of_pair hbusy (by simp)
  · have hctx : s.context = .run (invert s.color) := by rw [State.context, hphase]
    have hclose : closeRun n (s.readTo rest) = horizontal r1 n (s.readTo rest) := by
      simp [closeRun, State.readTo, hphase]
    exact ⟨by rw [decodeStep_runBits hbusy hctx hstream, hclose], State.readTo_stream ⟨_, hstream.symm⟩⟩

end Sys2Proof.Machine
end

section
/-! The Scanline Store (42_store.md): what completing a line leaves in each variant, what the end of a job adds, and
the output of a decode job as the lines pushed. -/

namespace Sys2Proof.Machine

/-- The state with a scanline in the store and counted, before anything of it is written out (42_store.md rule R143). -/
def State.received (s : State) (row : List Colour) : State :=
  { s with store := s.store ++ [row], lines := s.lines + 1 }

/-- The state at the start of the next line: the lines swap roles (43_mode_decoder.md rule R170, 10_state.md rule
R41). -/
def State.nextLine (s : State) : State := { s with sel := !s.sel, a0 := 0, color := .white }

@[simp] theorem State.nextLine_ref (s : State) : s.nextLine.ref = s.cur := by
  cases h : s.sel <;> simp [State.nextLine, State.ref, State.cur, h]

@[simp] theorem State.nextLine_cur (s : State) : s.nextLine.cur = s.ref := by
  cases h : s.sel <;> simp [State.nextLine, State.ref, State.cur, h]

@[simp] theorem State.nextLine_outBits (s : State) : s.nextLine.outBits = s.outBits := rfl

@[simp] theorem State.pixels_received (s : State) (row : List Colour) :
    (s.received row).pixels = s.pixels ++ row := by
  simp [State.received, State.pixels]

theorem PackerFrame.ref {s t : State} (h : PackerFrame s t) : t.ref = s.ref := by rw [h.eq]; rfl

theorem PackerFrame.cur {s t : State} (h : PackerFrame s t) : t.cur = s.cur := by rw [h.eq]; rfl

/-! ## Completing a line, in each variant -/

theorem lineComplete_array {s t : State} (hs : s.colourStore = true) :
    lineComplete s = .next t ↔
      s.ca.length + s.width ≤ s.params.maxOutBytes ∧
        t = State.nextLine
          { s.received (scanline s.width s.cur) with ca := s.ca ++ scanline s.width s.cur } := by
  simp only [lineComplete, orOverflow_next, State.push_some, hs, scanline_length, Host.Outcome.next.injEq,
    true_and, Bool.true_eq_false, false_and, or_false]
  constructor
  · rintro ⟨u, ⟨hfit, rfl⟩, rfl⟩
    exact ⟨hfit, rfl⟩
  · rintro ⟨hfit, rfl⟩
    exact ⟨_, ⟨hfit, rfl⟩, rfl⟩

theorem lineComplete_packed {s t : State} (hs : s.colourStore = false) :
    lineComplete s = .next t ↔
      ∃ u, (s.received (scanline s.width s.cur)).writeBits
          ((scanline s.width s.cur).map (colourBit s.params.blackBit)) = some u ∧ t = u.nextLine := by
  simp only [lineComplete, orOverflow_next, State.push_some, hs, Host.Outcome.next.injEq, Bool.false_eq_true,
    false_and, false_or, true_and, eq_comm (b := t)]
  rfl

/-- Settles O24: the colour array takes the line where it fits; the packer takes its bits, and its frame keeps the
rest. -/
theorem lineCompletePushesAndSwaps : Obligations.LineCompletePushesAndSwaps := by
  intro s hacc hwf hout
  refine ⟨fun hs hfit => (lineComplete_array hs).2 ⟨hfit, rfl⟩, fun hs hfit => ?_⟩
  obtain ⟨u, hu⟩ := (State.writeBits_isSome (s := s.received (scanline s.width s.cur)) hacc hout
    ((scanline s.width s.cur).map (colourBit s.params.blackBit))).2 (by simpa [State.received] using hfit)
  have hframe := State.writeBits_frame hu
  refine ⟨u.nextLine, (lineComplete_packed hs).2 ⟨u, hu, rfl⟩, ?_, ?_, ?_, ?_⟩
  · calc u.nextLine
        = State.nextLine { s.received (scanline s.width s.cur) with
            acc := u.acc, outMem := u.outMem, outLen := u.outLen } := congrArg State.nextLine hframe.eq
      _ = _ := rfl
  · exact u.nextLine_outBits.trans (State.writeBits_outBits (s := s.received _) hwf hu)
  · exact u.nextLine_ref.trans hframe.cur
  · exact u.nextLine_cur.trans hframe.ref

/-! ## The output of a running decode job -/

/-- A decode job that runs with its output equal to the lines pushed, at any code word of a step. -/
structure Receiving (s : State) : Prop where
  busy : s.status = .busy .decode
  acc : s.acc.length < 8
  outWf : Memory.wf s.outMem
  output : DecodeOutput s

/-- Reading bits touches no output. -/
theorem Receiving.readTo {s : State} (h : Receiving s) (rest : List Bool) : Receiving (s.readTo rest) :=
  ⟨h.busy, h.acc, h.outWf, h.output.lines, h.output.rows, h.output.packed, h.output.array⟩

/-- A code word after which the job goes on touches no output. -/
theorem Receiving.moves {s t : State} (h : Receiving s) (hm : Moves s t) : Receiving t := by
  obtain ⟨l, hl⟩ := hm.eq
  rw [hl]
  exact ⟨h.busy, h.acc, h.outWf, h.output.lines, h.output.rows, h.output.packed, h.output.array⟩

theorem rows_received {s : State} (h : DecodeOutput s) :
    ∀ row ∈ s.store ++ [scanline s.width s.cur], row.length = s.width := by
  intro row hrow
  rcases List.mem_append.1 hrow with hrow | hrow
  · exact h.rows row hrow
  · rw [List.mem_singleton.1 hrow, scanline_length]

/-- Completing a line writes out its pixels, in either variant. -/
theorem Receiving.lineComplete {s t : State} (h : Receiving s) (ht : lineComplete s = .next t) :
    Receiving t := by
  have hlines : s.lines + 1 = (s.store ++ [scanline s.width s.cur]).length := by simp [h.output.lines]
  have hrows := rows_received h.output
  cases hs : s.colourStore with
  | true =>
    obtain ⟨-, rfl⟩ := (lineComplete_array hs).1 ht
    obtain ⟨hca, hlen, hnil⟩ := h.output.array hs
    refine ⟨h.busy, h.acc, h.outWf, hlines, hrows, fun hp => absurd (hs.symm.trans hp) (by decide),
      fun _ => ⟨?_, hlen, hnil⟩⟩
    calc s.ca ++ scanline s.width s.cur
        = s.pixels ++ scanline s.width s.cur := by rw [hca]
      _ = (s.received (scanline s.width s.cur)).pixels := (State.pixels_received _ _).symm
  | false =>
    obtain ⟨u, hu, rfl⟩ := (lineComplete_packed hs).1 ht
    have hframe := State.writeBits_frame hu
    have hbits : u.outBits = (s.received (scanline s.width s.cur)).pixels.map (colourBit s.params.blackBit) := by
      rw [State.writeBits_outBits (s := s.received _) h.outWf hu, State.pixels_received, List.map_append,
        ← h.output.packed hs]
      rfl
    have hacc := hframe.acc h.acc
    have hwf := hframe.wf h.outWf
    rw [hframe.eq] at hbits hacc hwf ⊢
    exact ⟨h.busy, hacc, hwf, hlines, hrows, fun _ => hbits,
      fun ha => absurd (hs.symm.trans ha) (by decide)⟩

/-! ## The output of an ended decode job -/

/-- What the output of an ended decode job is: as that of a running one, but that the packed bitmap is padded to a
whole byte (42_store.md rules R145 and R146). -/
structure EndedOutput (s : State) : Prop where
  lines : s.lines = s.store.length
  rows : ∀ row ∈ s.store, row.length = s.width
  packed : s.colourStore = false →
    s.acc = [] ∧ ∃ k, k < 8 ∧ s.outBits = s.pixels.map (colourBit s.params.blackBit) ++ List.replicate k false
  array : s.colourStore = true → s.ca = s.pixels ∧ s.outLen = 0 ∧ s.acc = []

/-- `STATE` and the transient phase are no part of the output. -/
theorem EndedOutput.withStatus {s : State} (h : EndedOutput s) (st : Status) :
    EndedOutput { s with phase := .mode, status := st } :=
  ⟨h.lines, h.rows, h.packed, h.array⟩

/-- Finalising the store pads the packed bitmap, and leaves the colour array as it is. -/
theorem Receiving.finalise {s u : State} (h : Receiving s) (hu : s.finalise = some u) : EndedOutput u := by
  cases hs : s.colourStore with
  | true =>
    obtain rfl : s = u := by simpa [State.finalise, hs] using hu
    exact ⟨h.output.lines, h.output.rows, fun hp => absurd (hs.symm.trans hp) (by decide), h.output.array⟩
  | false =>
    have hflush : s.flush = some u := by simpa [State.finalise, h.busy, hs] using hu
    have hacc := State.flush_acc h.acc hflush
    have hbits := State.flush_outBits h.acc h.outWf hflush
    rw [h.output.packed hs] at hbits
    rw [(State.flush_frame hflush).eq] at hacc hbits ⊢
    exact ⟨h.output.lines, h.output.rows, fun _ => ⟨hacc, _, Nat.mod_lt _ (by decide), hbits⟩,
      fun ha => absurd (hs.symm.trans ha) (by decide)⟩

/-- What a decode step leaves: a job that runs on with its output, or one that has ended with it. -/
def OutputKept (t : State) : Prop := Receiving t ∨ (t.hasResult = true ∧ EndedOutput t)

theorem Receiving.raiseError {s t : State} {e : ErrKind} (h : Receiving s) (ht : raiseError e s = .next t) :
    t.hasResult = true ∧ EndedOutput t := by
  obtain ⟨u, -, hu, rfl⟩ := raiseError_next ht
  exact ⟨rfl, (h.finalise hu).withStatus _⟩

theorem Receiving.finishDecode {s t : State} (h : Receiving s) (ht : finishDecode s = .next t) :
    t.hasResult = true ∧ EndedOutput t := by
  obtain ⟨u, -, hu, rfl⟩ := finishDecode_next ht
  exact ⟨rfl, (h.finalise hu).withStatus _⟩

theorem Receiving.exec {s t : State} {i : Instr} (h : Receiving s) (ht : exec i s = .next t) : OutputKept t := by
  rcases exec_next ht with hm | ⟨e, he⟩ | hf
  · exact .inl (h.moves hm)
  · exact .inr (h.raiseError he)
  · exact .inr (h.finishDecode hf)

/-- An ended job is not running. -/
theorem OutputKept.receiving {t : State} (h : OutputKept t) (hbusy : t.status = .busy .decode) : Receiving t := by
  rcases h with h | ⟨hr, -⟩
  · exact h
  · simp [State.hasResult, hbusy] at hr

/-- A decode step keeps the output equal to the lines pushed: over the code words of the step, of which the last
completes a line, ends the job or does neither. -/
theorem Receiving.decodeStep {s t : State} (h : Receiving s) (ht : decodeStep s = .next t) : OutputKept t := by
  refine decodeStep_induct (P := fun s t => Receiving s → OutputKept t) ?raised ?stop ?pair ht h
  case raised => exact fun s e rest t _ ht h => .inr ((h.readTo rest).raiseError ht)
  case stop =>
    intro s i rest u t _ hu hstop h
    have hkept := (h.readTo rest).exec hu
    rcases hstop with ⟨-, rfl⟩ | ⟨hbusy, -, -, hline⟩ | ⟨-, -, -, rfl⟩
    · exact hkept
    · exact .inl ((hkept.receiving hbusy).lineComplete hline)
    · exact hkept
  case pair =>
    intro s i rest u t _ hu hbusy _ _ ih h
    exact ih (((h.readTo rest).exec hu).receiving hbusy)

/-- Settles O30: the invariant gives what the packer needs, the decode step keeps the output, and the statement reads
it off by whether the job still runs. -/
theorem outputIsTheLinesPushed : Obligations.OutputIsTheLinesPushed := by
  intro s t hinv hbusy hops hout ht
  have hstep : decodeStep s = .next t := by
    rw [step_of_no_access hops, coreStep, hbusy] at ht
    exact ht
  have hs : Receiving s := ⟨hbusy, hinv.acc, hinv.outWf, hout⟩
  rcases hs.decodeStep hstep with ⟨hrun, -, -, ho⟩ | ⟨hres, ho⟩
  · exact ⟨⟨ho.lines, ho.rows⟩, ho.array, fun hp _ => ho.packed hp,
      fun _ hres => by simp [State.hasResult, hrun] at hres, .inl hrun⟩
  · exact ⟨⟨ho.lines, ho.rows⟩, ho.array, fun _ hrun => by simp [State.hasResult, hrun] at hres,
      fun hp _ => ho.packed hp, .inr hres⟩

end Sys2Proof.Machine
end

section
/-! The Pass code of the mode decoder (43_mode_decoder.md rule R157). -/

namespace Sys2Proof.Machine

theorem State.a0_lt_b2 {s : State} (h : s.a0 ≤ s.width) : s.a0 < s.b2 :=
  lt_of_lt_of_le (State.a0_lt_b1 h) s.b1_le_b2

/-- Settles O8: `b2` is at most `W + 1`, so the bounds check of Pass never raises; and `a0 < b1 ≤ b2` within the
line. -/
theorem passFillsToB2 : Obligations.PassFillsToB2 := by
  intro s
  have hexec : exec .p s = .next { s.setCur (fill s.cur s.a0 s.b2 s.color) with a0 := s.b2 } := execP_cases s
  exact ⟨rfl, hexec, s.b2_le, State.a0_lt_b2⟩

end Sys2Proof.Machine
end

section
/-! The encoder (44_encoder.md rules R182 to R186): the load of a source line, and the mode decision of CodeStep, one
equation for each of its three cases. -/

namespace Sys2Proof.Machine

/-! ## The load of a source line -/

@[simp] theorem loadLine_cur (s : State) : (loadLine s).cur = s.sourceLine := s.setCur_cur _

theorem loadLine_rpos (s : State) : (loadLine s).rpos = (s.y + 1) * s.stride :=
  calc (loadLine s).rpos
      = s.y * s.stride + s.cfgSkipLead.toNat + s.width + s.cfgSkipTail.toNat := rfl
    _ = s.y * s.stride + s.stride := by simp only [State.stride]; omega
    _ = (s.y + 1) * s.stride := (Nat.succ_mul _ _).symm

/-- A line of the source ends within the input (44_encoder.md rule R181). -/
theorem State.line_end_le_input {s : State} (hy : s.y < s.height) : (s.y + 1) * s.stride ≤ 8 * s.inLen :=
  (Nat.mul_le_mul_right _ hy).trans (Nat.div_mul_le_self _ _)

/-- Settles O42: the current line is the source line, and `rpos` adds up to the end of a line of `stride` bits. -/
theorem loadLineReadsTheSource : Obligations.LoadLineReadsTheSource := by
  intro s
  have hcur := loadLine_cur s
  refine ⟨?_, ?_, fun x h1 h2 => ?_, loadLine_rpos s, State.line_end_le_input, ?_⟩
  · rw [hcur, State.sourceLine_zero]
  · rw [hcur, State.sourceLine_length]
  · rw [hcur, State.sourceLine_cell h1 h2]
    rfl
  · rw [hcur]
    rfl

/-! ## The mode decision -/

/-- The table has one Vertical code for each offset. -/
theorem verticalCodes_offset_injective :
    ∀ r ∈ verticalCodes, ∀ r' ∈ verticalCodes, r.2.1 = r'.2.1 → r = r' := by decide

theorem verticalCodes_offset_le : ∀ r ∈ verticalCodes, r.2.1.natAbs ≤ 3 := by decide

/-- A row of the table is the Vertical code of its offset (44_encoder.md rule R185). -/
theorem verticalCode_of_mem {row : Instr × Int × List Bool} {a1 b1 : Nat} (hrow : row ∈ verticalCodes)
    (hoffset : (a1 : Int) - b1 = row.2.1) : verticalCode a1 b1 = some row.1 := by
  cases h : verticalCode a1 b1 with
  | none =>
    have hfar := verticalCode_none.1 h
    have hnear := verticalCodes_offset_le row hrow
    omega
  | some code =>
    obtain ⟨k, hmem, hk⟩ := verticalCode_some h
    have hsame : k = row.2.1 := by omega
    rw [← verticalCodes_offset_injective _ hmem row hrow hsame]

theorem codeStep_pass {s : State} (h : s.b2 < s.a1) : codeStep s = emitPass s := if_pos h

theorem codeStep_vertical {s : State} {code : Instr} (h : ¬ s.b2 < s.a1)
    (hcode : verticalCode s.a1 s.b1 = some code) : codeStep s = emitVertical code s := by
  rw [codeStep, if_neg h, hcode]

theorem codeStep_horizontal {s : State} (h : ¬ s.b2 < s.a1) (hfar : verticalCode s.a1 s.b1 = none) :
    codeStep s = emitHorizontal s := by
  rw [codeStep, if_neg h, hfar]

/-- Settles O43: each clause's hypothesis picks the code that CodeStep emits, and the emission is the write of its
bits followed by its assignments. -/
theorem encoderModeDecision : Obligations.EncoderModeDecision := by
  intro s t ht
  refine ⟨fun hpass => ?_, fun hpass row hrow hoffset => ?_, fun hpass hfar => ?_⟩
  · rw [codeStep_pass hpass] at ht
    obtain ⟨u, hu, rfl⟩ := Option.map_eq_some_iff.1 ht
    exact ⟨u, hu, rfl⟩
  · rw [codeStep_vertical hpass (verticalCode_of_mem hrow hoffset)] at ht
    obtain ⟨u, hu, rfl⟩ := Option.map_eq_some_iff.1 ht
    exact ⟨u, encode_verticalCode row hrow ▸ hu, rfl⟩
  · rw [codeStep_horizontal hpass (verticalCode_none.2 hfar)] at ht
    obtain ⟨u, hu, rfl⟩ := Option.map_eq_some_iff.1 ht
    exact ⟨u, hu, rfl⟩

end Sys2Proof.Machine
end

section
/-! Where a codebook stops reading, for every context (30_encoding.md rules R88 and R90, 41_runlength.md rule R128):
the code words, and the dead strings. -/

namespace Sys2Proof

/-- Settles O1: the decoder stops at a code word's last bit, whatever follows. -/
theorem decodeOfEncodeIsTheCodeWord : Obligations.DecodeOfEncodeIsTheCodeWord :=
  fun _ _ rest h => decode_encode_append h rest

theorem codebook_eq_more (ctx : Context) : ∃ zero one, codebook ctx = .more zero one := by
  match ctx with
  | .mode => exact ⟨_, _, rfl⟩
  | .run .white => exact ⟨_, _, rfl⟩
  | .run .black => exact ⟨_, _, rfl⟩

/-- Reading ends inside a code word, or at a stop of the codebook. -/
theorem scan_short_or_stop (e : ErrKind) (zero one : Codebook) (bits : List Bool) :
    scan e (.more zero one) bits = .short ∨ ∃ p ∈ (Codebook.more zero one).stops, p <+: bits := by
  induction bits generalizing zero one with
  | nil => exact .inl rfl
  | cons b bits ih =>
    have deeper : ∀ book : Codebook, (Codebook.more zero one).next b = book →
        (∀ p ∈ book.stops, (b :: p) ∈ (Codebook.more zero one).stops) := by
      rintro book rfl p hp
      cases b <;> simpa [Codebook.stops, Codebook.next] using hp
    cases hnext : (Codebook.more zero one).next b with
    | dead => exact .inr ⟨[b], deeper _ hnext [] (by simp [Codebook.stops]), by simp⟩
    | word i => exact .inr ⟨[b], deeper _ hnext [] (by simp [Codebook.stops]), by simp⟩
    | more zero' one' =>
      rw [scan, hnext]
      refine (ih zero' one').imp id fun ⟨p, hp, hpre⟩ => ⟨b :: p, deeper _ hnext p hp, by simpa using hpre⟩

/-- A bit string that is read to its last bit, as a code word of the context or as a dead string. -/
def stopsAtEnd (ctx : Context) (p : List Bool) : Bool :=
  match decode ctx p with
  | .word i rest => i.wellFormedIn ctx && p == encode i && rest == []
  | .dead e rest => e == deadKind ctx && rest == []
  | .short => false

theorem stopsAtEnd_of_mem_stops {ctx : Context} : ∀ p ∈ (codebook ctx).stops, stopsAtEnd ctx p = true := by
  match ctx with
  | .mode => decide
  | .run .white => decide
  | .run .black => decide

theorem stopsAtEnd_cases {ctx : Context} {p : List Bool} (h : stopsAtEnd ctx p = true) :
    (∃ i, i.wellFormedIn ctx = true ∧ p = encode i) ∨ decode ctx p = .dead (deadKind ctx) [] := by
  unfold stopsAtEnd at h
  cases hp : decode ctx p with
  | word i rest =>
    obtain ⟨⟨hwf, hbits⟩, -⟩ : (i.wellFormedIn ctx = true ∧ p = encode i) ∧ rest = [] := by simpa [hp] using h
    exact .inl ⟨i, hwf, hbits⟩
  | dead e rest =>
    obtain ⟨rfl, rfl⟩ : e = deadKind ctx ∧ rest = [] := by simpa [hp] using h
    exact .inr rfl
  | short => simp [hp] at h

/-- What decoding can answer, and from which bits. -/
theorem decode_cases (ctx : Context) (bits : List Bool) :
    decode ctx bits = .short ∨
      (∃ i rest, i.wellFormedIn ctx = true ∧ bits = encode i ++ rest ∧ decode ctx bits = .word i rest) ∨
      ∃ p ∈ (codebook ctx).stops, ∃ rest, bits = p ++ rest ∧ decode ctx p = .dead (deadKind ctx) [] ∧
        decode ctx bits = .dead (deadKind ctx) rest := by
  obtain ⟨zero, one, hbook⟩ := codebook_eq_more ctx
  have hstop := scan_short_or_stop (deadKind ctx) zero one bits
  rw [← hbook] at hstop
  obtain hshort | ⟨p, hp, rest, rfl⟩ := hstop
  · exact .inl hshort
  obtain ⟨i, hi, rfl⟩ | hdead := stopsAtEnd_cases (stopsAtEnd_of_mem_stops p hp)
  · exact .inr (.inl ⟨i, rest, hi, rfl, decode_encode_append hi rest⟩)
  · exact .inr (.inr ⟨p, hp, rest, rfl, hdead, scan_append.2 _ [] hdead rest⟩)

/-- Settles O2: reading stops at a stop of the codebook, and the stops that answer a code word are its bits. -/
theorem onlyCodeWordsDecode : Obligations.OnlyCodeWordsDecode := by
  intro ctx bits i rest h
  obtain hshort | ⟨j, tail, hj, hbits, hword⟩ | ⟨p, -, tail, -, -, hdead⟩ := decode_cases ctx bits
  · simp [hshort] at h
  · obtain ⟨rfl, rfl⟩ := Decoded.word.inj (hword.symm.trans h)
    exact ⟨hj, hbits⟩
  · simp [hdead] at h

/-- Settles O5: each is the code word's bits written out. -/
theorem writtenOutWordsDecode : Obligations.WrittenOutWordsDecode := by
  unfold Obligations.WrittenOutWordsDecode
  decide

theorem deadKind_of_decode {ctx : Context} {bits rest : List Bool} {e : ErrKind}
    (h : decode ctx bits = .dead e rest) : e = deadKind ctx := by
  obtain hshort | ⟨i, tail, -, -, hword⟩ | ⟨p, -, tail, -, -, hdead⟩ := decode_cases ctx bits
  · simp [hshort] at h
  · simp [hword] at h
  · exact (Decoded.dead.inj (hdead.symm.trans h)).1.symm

/-- 30_encoding.md rule R90: each run table is complete but for eight zeros. -/
theorem runBook_dead_stop (c : Colour) : ∀ p ∈ (codebook (.run c)).stops,
    decode (.run c) p = .dead .unknownCode [] → p = List.replicate 8 false := by
  cases c <;> decide

/-- Settles O7: eight zeros are the one stop of a run table that is no code word. -/
theorem unknownCodeIsEightZeros : Obligations.UnknownCodeIsEightZeros := by
  intro c bits e rest
  constructor
  · intro h
    obtain rfl := deadKind_of_decode h
    obtain hshort | ⟨i, tail, -, -, hword⟩ | ⟨p, hp, tail, rfl, hstop, hdead⟩ := decode_cases (.run c) bits
    · simp [hshort] at h
    · simp [hword] at h
    · obtain ⟨-, rfl⟩ := Decoded.dead.inj (hdead.symm.trans h)
      exact ⟨rfl, by rw [runBook_dead_stop c p hp hstop]⟩
  · rintro ⟨rfl, rfl⟩
    have alone : decode (.run c) (List.replicate 8 false) = .dead .unknownCode [] := by cases c <;> decide
    exact scan_append.2 _ [] alone rest

end Sys2Proof
end

section
/-! The end of a job (60_exceptions.md rules R200 and R201), and the meanings that end it: the Extensions and EOFB
(43_mode_decoder.md rules R167 to R169). -/

namespace Sys2Proof.Machine

/-- What a step of the core answers when it is never stuck: a next state, or the refusal of output that does not fit
(20_memory.md rule R62). -/
def NextOrOverflow (r : Result) : Prop := (∃ t, r = .next t) ∨ r = .refused .outputOverflow

theorem NextOrOverflow.next (t : State) : NextOrOverflow (.next t) := .inl ⟨t, rfl⟩

theorem orOverflow_nextOrOverflow (o : Option State) (k : State → State) :
    NextOrOverflow (orOverflow o fun t => .next (k t)) := by
  cases o with
  | none => exact .inr rfl
  | some t => exact .inl ⟨k t, rfl⟩

theorem raiseError_nextOrOverflow (e : ErrKind) (s : State) : NextOrOverflow (raiseError e s) :=
  orOverflow_nextOrOverflow _ _

theorem finishDecode_nextOrOverflow (s : State) : NextOrOverflow (finishDecode s) :=
  orOverflow_nextOrOverflow _ _

theorem finalise_of_flushFits {s : State} (hacc : s.acc.length < 8) (h : s.flushFits) :
    s.finalise = some s.flushed := by
  rw [State.finalise_eq hacc, if_pos h]

theorem finalise_of_not_flushFits {s : State} (hacc : s.acc.length < 8) (h : ¬ s.flushFits) :
    s.finalise = none := by
  rw [State.finalise_eq hacc, if_neg h]

theorem raiseError_of_flushFits (e : ErrKind) {s : State} (hacc : s.acc.length < 8) (h : s.flushFits) :
    raiseError e s = .next { s.flushed with phase := .mode, status := .error e } := by
  rw [raiseError, finalise_of_flushFits hacc h, orOverflow]

theorem finishDecode_of_flushFits {s : State} (hacc : s.acc.length < 8) (h : s.flushFits) :
    finishDecode s = .next { s.flushed with phase := .mode, status := .done } := by
  rw [finishDecode, finalise_of_flushFits hacc h, orOverflow]

/-- Finalisation keeps the store, `LINES` and `CA`. -/
theorem State.flushed_output (s : State) :
    s.flushed.store = s.store ∧ s.flushed.lines = s.lines ∧ s.flushed.ca = s.ca := by
  unfold State.flushed
  split <;> exact ⟨rfl, rfl, rfl⟩

/-- Settles O14: both Extensions are `raise ExtensionNotSupported`. -/
theorem extensionEndsTheJob : Obligations.ExtensionEndsTheJob := by
  intro i hi s hacc hfits
  have hraise := raiseError_of_flushFits .extensionNotSupported hacc hfits
  simp only [List.mem_cons, List.not_mem_nil, or_false] at hi
  rcases hi with rfl | rfl <;> exact hraise

/-- Settles O15: EOFB is the successful end of the job. -/
theorem eofbEndsTheJob : Obligations.EofbEndsTheJob := by
  intro s hacc hfits
  exact ⟨finishDecode_of_flushFits hacc hfits, s.flushed_output⟩

/-- Settles O16: the store is finalised, and STATUS reads as the error. -/
theorem raiseEndsTheJob : Obligations.RaiseEndsTheJob := by
  intro e s hacc hfits
  obtain ⟨hstore, hlines, hca⟩ := s.flushed_output
  exact ⟨raiseError_of_flushFits e hacc hfits, hstore, hlines, hca, rfl, rfl⟩

/-- Settles O17: the finalisation of the store has no room, and every end of a job begins with it. -/
theorem overflowAtTheEndIsRefused : Obligations.OverflowAtTheEndIsRefused := by
  intro s hacc hfull
  have hnone := finalise_of_not_flushFits hacc hfull
  have hraise : ∀ e, raiseError e s = .refused .outputOverflow := fun e => by rw [raiseError, hnone, orOverflow]
  have hfinish : finishDecode s = .refused .outputOverflow := by rw [finishDecode, hnone, orOverflow]
  exact ⟨hraise, hfinish, hraise _, hraise _⟩

/-- Finalisation writes `OUT` at the address `OUT_LEN` alone. -/
theorem State.finalise_outMem {s u : State} (h : s.finalise = some u) {a : Nat} (ha : a ≠ s.outLen) :
    Memory.read u.outMem a = Memory.read s.outMem a := by
  rcases Nat.lt_or_ge s.acc.length 8 with hacc | hacc
  · rw [State.finalise_eq hacc] at h
    split at h
    · obtain rfl := Option.some.inj h
      unfold State.flushed
      split
      · exact Memory.read_write_other _ _ _ _ ha
      · rfl
    · cases h
  · have hnothing : s.flush = some s := by
      rw [State.flush, Nat.sub_eq_zero_of_le hacc, List.replicate_zero, State.writeBits, ite_self]
    rw [State.finalise, hnothing, ite_self] at h
    rw [Option.some.inj h]

end Sys2Proof.Machine
end

section
/-! The meanings of the run codes and of `H` (41_runlength.md rules R120 to R127, 43_mode_decoder.md rules R155 and
R158). -/

namespace Sys2Proof.Machine

/-- Settles O10: `H` writes the phase alone. -/
theorem horizontalOpensAPair : Obligations.HorizontalOpensAPair := fun _ => rfl

theorem State.context_of_run1 {s : State} {tot : Nat} (h : s.phase = .run1 tot) : s.context = .run s.color := by
  rw [State.context, h]

theorem State.context_of_run2 {s : State} {r1 tot : Nat} (h : s.phase = .run2 r1 tot) :
    s.context = .run (invert s.color) := by
  rw [State.context, h]

theorem exec_makeUp {c : Colour} {r : RunRow} {s : State} (hr : r ∈ runRows c) (hctx : s.context = .run c)
    (hge : 64 ≤ r.value) : exec r.instr s = .next (s.addToRun r.value) := by
  rw [exec_runRow_of_context hr hctx, if_neg (Nat.not_lt.2 hge)]

theorem exec_terminating {c : Colour} {r : RunRow} {s : State} (hr : r ∈ runRows c) (hctx : s.context = .run c)
    (hlt : r.value < 64) : exec r.instr s = closeRun r.value s := by
  rw [exec_runRow_of_context hr hctx, if_pos hlt]

/-- Settles O11: a terminating row closes the first run, a make-up row adds to it. -/
theorem runCodesAddToTheFirstRun : Obligations.RunCodesAddToTheFirstRun := by
  intro s tot hphase r hr
  have hctx := State.context_of_run1 hphase
  split
  case isTrue hlt => rw [exec_terminating hr hctx hlt, closeRun, hphase]
  case isFalse hge => rw [exec_makeUp hr hctx (by omega), State.addToRun, hphase]; rfl

/-- Settles O12: a make-up row adds to the run that is being read, here the second. -/
theorem makeUpCodesAddToTheSecondRun : Obligations.MakeUpCodesAddToTheSecondRun := by
  intro s r1 tot hphase r hr hge
  rw [exec_makeUp hr (State.context_of_run2 hphase) hge, State.addToRun, hphase]
  rfl

theorem horizontal_of_fits {r1 r2 : Nat} {s : State} (h : s.runStart + r1 + r2 ≤ s.width + 1) :
    horizontal r1 r2 s = .next
      { s.setCur (fill (fill s.cur s.runStart (s.runStart + r1) s.color) (s.runStart + r1)
          (s.runStart + r1 + r2) (invert s.color)) with
        a0 := s.runStart + r1 + r2, phase := .mode } :=
  if_neg (Nat.not_lt.2 h)

theorem horizontal_of_overrun {r1 r2 : Nat} {s : State} (h : s.width + 1 < s.runStart + r1 + r2) :
    horizontal r1 r2 s = raiseError .outOfBounds s :=
  if_pos h

/-- Settles O13: the terminating row closes the second run, and with it the pair. -/
theorem terminatingCodeClosesThePair : Obligations.TerminatingCodeClosesThePair := by
  intro s r1 tot hphase r hr hlt
  have hexec : exec r.instr s = horizontal r1 (tot + r.value) s := by
    rw [exec_terminating hr (State.context_of_run2 hphase) hlt, closeRun, hphase]
  rw [hexec]
  exact ⟨horizontal_of_fits, horizontal_of_overrun⟩

theorem horizontal_nextOrOverflow (r1 r2 : Nat) (s : State) : NextOrOverflow (horizontal r1 r2 s) := by
  obtain ⟨-, h⟩ | ⟨-, h⟩ := horizontal_cases r1 r2 s <;> rw [h]
  · exact raiseError_nextOrOverflow _ _
  · exact .next _

theorem vertical_nextOrOverflow (k : Int) (s : State) : NextOrOverflow (vertical k s) := by
  obtain ⟨-, h⟩ | ⟨a1, -, -, -, h⟩ := vertical_cases k s <;> rw [h]
  · exact raiseError_nextOrOverflow _ _
  · exact .next _

theorem closeRun_nextOrOverflow {c : Colour} {s : State} (hctx : s.context = .run c) (n : Nat) :
    NextOrOverflow (closeRun n s) := by
  unfold closeRun
  cases hphase : s.phase with
  | mode => exact absurd hphase (phase_ne_mode_of_context hctx)
  | run1 tot => exact .next _
  | run2 r1 tot => exact horizontal_nextOrOverflow _ _ _

/-! ## The kinds of code words -/

/-- The mode codes by their kinds (30_encoding.md rule R81). -/
theorem modeCode_cases {i : Instr} (h : i ∈ codeWords .mode) :
    i = .p ∨ i = .h ∨ (∃ code ∈ verticalCodes, i = code.1) ∨ i = .ext2d ∨ i = .ext1d ∨ i = .eofb := by
  simp only [codeWords, modeRows, verticalCodes, List.map_cons, List.map_nil, List.mem_cons, List.not_mem_nil,
    or_false, exists_eq_or_imp, exists_eq_left] at h ⊢
  tauto

theorem exists_runRow_of_mem {c : Colour} {i : Instr} (h : i ∈ codeWords (.run c)) :
    ∃ r ∈ runRows c, i = r.instr := by
  obtain ⟨r, hr, rfl⟩ := List.mem_map.1 h
  exact ⟨r, hr, rfl⟩

/-- Every code word is one of the mode codebook or a row of a run table. -/
theorem mem_codeWords_some (i : Instr) : i ∈ codeWords .mode ∨ ∃ c, i ∈ codeWords (.run c) := by
  have hmem := mem_words_book i
  cases hbook : i.book with
  | modes => exact .inl (by rwa [hbook] at hmem)
  | runs c => exact .inr ⟨c, by rwa [hbook] at hmem⟩
  | bothRuns => exact .inr ⟨.white, extendedWords_subset .white (by rwa [hbook] at hmem)⟩

/-- No code word is stuck in its context. -/
theorem exec_nextOrOverflow {i : Instr} {s : State} (h : i.wellFormedIn s.context = true) :
    NextOrOverflow (exec i s) := by
  rw [wellFormedIn_iff_mem_codeWords] at h
  cases hctx : s.context with
  | mode =>
    rw [hctx] at h
    obtain rfl | rfl | ⟨code, hcode, rfl⟩ | rfl | rfl | rfl := modeCode_cases h
    · exact .inl ⟨_, execP_cases s⟩
    · exact .next _
    · rw [exec_verticalCode hcode]; exact vertical_nextOrOverflow _ _
    · exact raiseError_nextOrOverflow _ _
    · exact raiseError_nextOrOverflow _ _
    · exact finishDecode_nextOrOverflow _
  | run c =>
    rw [hctx] at h
    obtain ⟨r, hr, rfl⟩ := exists_runRow_of_mem h
    rw [exec_runRow_of_context hr hctx]
    split
    · exact closeRun_nextOrOverflow hctx _
    · exact .next _

/-- Settles O18: the refusals are the phases that `runCode` does not answer; a decoded code word is one of its
context, and so never stuck. -/
theorem runCodesNeedTheirRun : Obligations.RunCodesNeedTheirRun := by
  refine ⟨fun c r hr s => ?_, fun s i rest hd hrefused => ?_⟩
  · obtain ⟨table, htable, hown, hexec⟩ := exec_runRow c r hr
    rw [hexec]
    refine ⟨fun hphase => by rw [runCode, hphase], fun tot hphase hcolor hvalue => ?_,
      fun r1 tot hphase hcolor hvalue => ?_⟩
    · simp [runCode, hphase, hown hvalue, Ne.symm hcolor]
    · have hother : c ≠ invert s.color := by rw [ne_iff_eq_invert, invert_invert, hcolor]
      simp [runCode, hphase, hown hvalue, hother]
  · have hwf := (onlyCodeWordsDecode _ _ _ _ hd).1
    obtain ⟨t, ht⟩ | hover := exec_nextOrOverflow (s := s.readTo rest) hwf
    · simp [ht] at hrefused
    · simp [hover] at hrefused

end Sys2Proof.Machine
end

section
/-! The frame of every code word: what no meaning changes (43_mode_decoder.md rules R157 to R169, 60_exceptions.md rule
R201). -/

namespace Sys2Proof.Machine

theorem raiseError_color {e : ErrKind} {s t : State} (h : raiseError e s = .next t) : t.color = s.color := by
  obtain ⟨u, hframe, -, rfl⟩ := raiseError_next h
  rw [hframe.eq]

theorem runCode_color {table : Option Colour} {v : Nat} {s t : State} (h : runCode table v s = .next t) :
    t.color = s.color := by
  unfold runCode at h
  split at h
  · cases h
  · split at h
    · split at h <;> exact Host.Outcome.next.inj h ▸ rfl
    · cases h
  · split at h
    · split at h
      · rename_i r1 tot _ _ _
        obtain ⟨-, hr⟩ | ⟨-, hr⟩ := horizontal_cases r1 (tot + v) s <;> rw [hr] at h
        · exact raiseError_color h
        · exact Host.Outcome.next.inj h ▸ rfl
      · exact Host.Outcome.next.inj h ▸ rfl
    · cases h

/-- 10_state.md rule R30: `color` changes for the Vertical codes alone, and at the end of a line. -/
theorem exec_color {i : Instr} {s t : State} (hi : i ∉ verticalCodes.map (·.1)) (h : exec i s = .next t) :
    t.color = s.color := by
  obtain hmode | ⟨c, hrun⟩ := mem_codeWords_some i
  · obtain rfl | rfl | ⟨code, hcode, rfl⟩ | rfl | rfl | rfl := modeCode_cases hmode
    · exact Host.Outcome.next.inj ((execP_cases s).symm.trans h) ▸ rfl
    · exact Host.Outcome.next.inj h ▸ rfl
    · exact absurd (List.mem_map_of_mem hcode) hi
    · exact raiseError_color h
    · exact raiseError_color h
    · obtain ⟨u, hframe, -, rfl⟩ := finishDecode_next h
      rw [hframe.eq]
  · obtain ⟨r, hr, rfl⟩ := exists_runRow_of_mem hrun
    obtain ⟨table, -, -, hexec⟩ := exec_runRow c r hr
    exact runCode_color (hexec s ▸ h)

/-- How a code word ends the job, when it does: the store is finalised, then the phase and `STATUS` are written. -/
theorem exec_moves_or_ends {i : Instr} {s t : State} (h : exec i s = .next t) :
    Moves s t ∨ ∃ u st, s.finalise = some u ∧ t = { u with phase := .mode, status := st } ∧
      (st = .done ∨ ∃ e, st = .error e) := by
  obtain hm | ⟨e, he⟩ | hf := exec_next h
  · exact .inl hm
  · obtain ⟨u, -, hu, rfl⟩ := raiseError_next he
    exact .inr ⟨u, _, hu, rfl, .inr ⟨e, rfl⟩⟩
  · obtain ⟨u, -, hu, rfl⟩ := finishDecode_next hf
    exact .inr ⟨u, _, hu, rfl, .inl rfl⟩

/-- Settles O19: `exec_keeps` gives the fields no meaning writes; the line, `OUT` and the packer by whether the job
goes on. -/
theorem codeWordFrame : Obligations.CodeWordFrame := by
  intro i s t h
  obtain ⟨l, ht⟩ := exec_keeps h
  have href : t.ref = s.ref := by rw [ht]; exact s.setCur_ref l
  refine ⟨?_, ?_, ⟨by rw [ht]; rfl, by rw [ht]; rfl, by rw [ht]; rfl, href⟩, ?_, fun hi => exec_color hi h, ?_⟩
  · rw [ht]; exact ⟨rfl, rfl, rfl, rfl, rfl, rfl⟩
  · rw [ht]; exact ⟨rfl, rfl, rfl, rfl, rfl, rfl⟩
  · rw [ht]; exact ⟨rfl, rfl, rfl⟩
  obtain hm | ⟨u, st, hu, rfl, hst⟩ := exec_moves_or_ends h
  · obtain ⟨l', hl'⟩ := hm.eq
    refine ⟨⟨hm.length, hm.before⟩, fun a _ => by rw [hl']; rfl, fun _ _ => ?_⟩
    rw [hl']
    exact ⟨rfl, rfl, rfl⟩
  · have hcur : u.cur = s.cur := (State.finalise_frame hu).cur
    refine ⟨⟨congrArg _ hcur, fun p _ => congrArg (cell · p) hcur⟩, fun a ha => State.finalise_outMem hu ha,
      fun hstatus hbusy => ?_⟩
    have : st = .busy .decode := hstatus.trans hbusy
    rcases hst with rfl | ⟨e, rfl⟩ <;> simp at this

end Sys2Proof.Machine
end

section
/-! The host's side (10_state.md section 2, 20_memory.md rules R66 to R69, 60_exceptions.md rule R212,
70_reset_and_hazards.md rules R220 and R221): accesses as steps, START, the registers and the buffers. -/

namespace Sys2Proof.Machine

/-! ## An access is a step -/

theorem step_of_wait {s : State} {ops : List HostOp} (h : s.hostOps = .wait :: ops) :
    step s = coreStep { s with hostOps := ops } := by
  simp [step, h]

theorem step_of_access {s : State} {op : HostOp} {ops : List HostOp} (hop : op ≠ .wait)
    (h : s.hostOps = op :: ops) : step s = hostStep op { s with hostOps := ops } := by
  rw [step, h]
  cases op with
  | wait => exact absurd rfl hop
  | _ => rfl

/-- Settles O58: the three forms of the queue, and a core without a job. -/
theorem hostAccessesAreTakenAlone : Obligations.HostAccessesAreTakenAlone := fun _ =>
  ⟨step_of_no_access, fun _ => step_of_wait, fun _ _ => step_of_access, coreStep_of_not_busy⟩

/-! ## Reset -/

/-- Settles O29: no job runs, and every memory is empty. -/
theorem resetHasTheInvariant : Obligations.ResetHasTheInvariant where
  inWf := ⟨.nil, fun _ h => by cases h⟩
  outWf := ⟨.nil, fun _ h => by cases h⟩
  modeBits := rfl
  acc := by decide
  out := Nat.zero_le _
  caFits := Nat.zero_le _
  phase := rfl
  job := fun h => by simp [State.isBusy, State.reset] at h

/-- Settles O51: the access taken is `hostReset`, which is `State.reset` but for the fields it keeps. -/
theorem resetAbandonsTheJob : Obligations.ResetAbandonsTheJob := by
  intro s ops h
  exact ⟨hostReset { s with hostOps := ops }, step_of_access (by simp) h, rfl, rfl, rfl, rfl, rfl, rfl, rfl⟩

/-! ## START -/

/-- The command of a job in `CTRL.CMD` (10_state.md rule R26). -/
def startCommand (j : Job) : Nat := if j = .decode then 1 else 2

theorem hostWriteReg_start {j : Job} {v : Reg} (h : v.toNat % 4 = startCommand j) (s : State) :
    hostWriteReg 5 v s = startJob j s := by
  cases j <;> simp only [startCommand, reduceCtorEq, if_true, if_false] at h <;> simp [hostWriteReg, h]

/-- Settles O52: a START with legal sizes is accepted, and writes what `beginJob` says. -/
theorem startBeginsAFreshJob : Obligations.StartBeginsAFreshJob := by
  intro s j v hidle hlow hhigh hin horder hcmd
  have haccepted : startJob j s = .next (beginJob j s) :=
    startJob_next.2 ⟨hidle, hlow, hhigh, hin, fun ⟨hj, ho⟩ => by simp [horder hj] at ho, rfl⟩
  exact ⟨beginJob j s, (hostWriteReg_start hcmd s).trans haccepted, rfl,
    fun p _ => ⟨cell_newRow _ p, cell_newRow _ p⟩, rfl⟩

/-- A fresh decode job has no output, and has received no line (42_store.md rules R141 and R142). -/
theorem beginJob_output (s : State) : DecodeOutput (beginJob .decode s) where
  lines := rfl
  rows := fun _ h => by cases h
  packed := fun _ => rfl
  array := fun hca => ⟨if_pos ⟨rfl, hca⟩, rfl, rfl⟩

/-- Settles O31: the state an accepted START creates has nothing in the store, in the packer or in `OUT`. -/
theorem startHasNoOutput : Obligations.StartHasNoOutput := by
  intro s t h
  obtain ⟨-, -, -, -, -, rfl⟩ := startJob_next.1 h
  exact ⟨beginJob_output s, rfl, rfl⟩

/-- Settles O53: the cases of `startJob` in the order it tests them. -/
theorem startIsRefused : Obligations.StartIsRefused := by
  intro s v
  refine ⟨fun h => by simp [hostWriteReg, h], fun h => by simp [hostWriteReg, h], fun j hcmd => ?_⟩
  rw [hostWriteReg_start hcmd]
  unfold startJob
  refine ⟨fun hbusy => by simp [hbusy], fun hidle hwidth => by simp [hidle, hwidth],
    fun hidle hlow hhigh hin => ?_, fun hidle hlow hhigh hin hj horder => ?_⟩
  · have hwidth : ¬ (s.width = 0 ∨ s.params.maxWidth < s.width) := by omega
    simp [hidle, hwidth, hin]
  · have hwidth : ¬ (s.width = 0 ∨ s.params.maxWidth < s.width) := by omega
    simp [hidle, hwidth, Nat.not_lt.2 hin, hj, horder]

/-! ## What the host may access -/

theorem configWrite_busy {s : State} (h : s.isBusy = true) (t : State) :
    configWrite s t = .refused .hostWriteWhileBusy := by
  rw [configWrite, if_pos h]

theorem configWrite_idle {s : State} (h : s.isBusy = false) (t : State) : configWrite s t = .next t := by
  simp [configWrite, h]

theorem hasResult_of_busy {s : State} (h : s.isBusy = true) : s.hasResult = false := by
  obtain ⟨j, hj⟩ := s.isBusy_iff.1 h
  simp [State.hasResult, hj]

theorem readCount_tooEarly {s : State} (h : s.hasResult = false) (n : Nat) :
    readCount n s = .refused .hostReadTooEarly := by
  simp [readCount, h]

theorem hostWriteReg_busy {s : State} (h : s.isBusy = true) {no : Nat} (hno : no ≤ 4) (v : Reg) :
    hostWriteReg no v s = .refused .hostWriteWhileBusy := by
  interval_cases no <;> exact configWrite_busy h _

theorem hostReadReg_busy {s : State} (h : s.isBusy = true) {no : Nat} (hno : no ≤ 4) :
    hostReadReg no s = .refused .hostReadTooEarly := by
  interval_cases no <;> simp [hostReadReg, readWhen, h]

/-- Settles O54: each access tests whether a job runs, or whether there is a result, before anything else. -/
theorem hostKeepsAwayFromARunningJob : Obligations.HostKeepsAwayFromARunningJob := by
  intro s ops
  refine ⟨fun hbusy => ⟨fun no v hno => ?_, fun no hno => ?_, fun a v => ?_⟩,
    fun hnone => ⟨fun no hno => ?_, fun a => ?_, fun k => ?_⟩, hasResult_of_busy⟩ <;>
    rw [step_of_access (by simp) rfl]
  · exact hostWriteReg_busy (s := { s with hostOps := ops }) hbusy hno v
  · exact hostReadReg_busy (s := { s with hostOps := ops }) hbusy hno
  · exact if_pos hbusy
  · rcases hno with rfl | rfl <;> exact readCount_tooEarly (s := { s with hostOps := ops }) hnone _
  · exact if_pos (by rw [Bool.not_eq_true']; exact hnone)
  · exact if_pos (by rw [Bool.not_eq_true']; exact hnone)

/-- Settles O55: the write is taken, and the register read is the field written. -/
theorem configurationReadsBack : Obligations.ConfigurationReadsBack := by
  intro s v hidle w hw
  have hread : ∀ t : State, t.isBusy = false → ∀ u,
      readWhen (!t.isBusy) u t = .next { t with hostData := .word u } := fun t ht u => by simp [readWhen, ht]
  simp only [List.mem_cons, List.not_mem_nil, or_false] at hw
  rcases hw with rfl | rfl | rfl | rfl | rfl
  · exact ⟨_, configWrite_idle hidle _, hread { s with cfgWidth := v } hidle _, rfl, rfl, rfl, rfl⟩
  · exact ⟨_, configWrite_idle hidle _, hread { s with cfgMode := v &&& 3 } hidle _, rfl, rfl, rfl, rfl⟩
  · exact ⟨_, configWrite_idle hidle _, hread { s with cfgSkipLead := v } hidle _, rfl, rfl, rfl, rfl⟩
  · exact ⟨_, configWrite_idle hidle _, hread { s with cfgSkipTail := v } hidle _, rfl, rfl, rfl, rfl⟩
  · exact ⟨_, configWrite_idle hidle _, hread { s with cfgInLen := v } hidle _, rfl, rfl, rfl, rfl⟩

/-- Settles O56: `STATE` is below 4 and `ERR` at most 5, so that the word holds both. -/
theorem statusReads : Obligations.StatusReads := by
  intro s
  refine ⟨rfl, rfl, ?_⟩
  cases s.status with
  | idle => decide
  | busy j => cases j <;> decide
  | done => decide
  | error e => cases e <;> decide

/-- Settles O57: with a result the host may read, and the address is in its space. -/
theorem resultsAreReadable : Obligations.ResultsAreReadable := by
  intro s hres
  have hcount : ∀ n, n < 2 ^ 32 → readCount n s = .next { s with hostData := .word (BitVec.ofNat 32 n) } :=
    fun n hn => by rw [readCount, if_neg (by simp [hres]), if_pos hn]
  refine ⟨hcount s.lines, hcount s.outLen, fun a ha hfits => ?_, fun k c hk hc => ?_⟩
  · rw [hostReadOut, if_neg (by simp [hres]), if_neg (Nat.not_le.2 hfits), if_pos ha]
  · rw [hostReadCa, if_neg (by simp [hres]), if_neg (Nat.not_le.2 hk), hc]

/-- Settles O59: with no job running the write is taken where the address is in the space. -/
theorem inputBytesReadBack : Obligations.InputBytesReadBack := by
  intro s ops a v hidle hwf hops
  have hstep : step s = hostWriteIn a v { s with hostOps := ops } := step_of_access (by simp) hops
  have hfree : ¬ s.isBusy = true := by simp [hidle]
  rw [hstep]
  refine ⟨fun ha => ?_, fun ha => (if_neg hfree).trans (if_neg (Nat.not_lt.2 ha))⟩
  exact ⟨_, (if_neg hfree).trans (if_pos ha), Memory.read_write_same _ _ _ hwf,
    fun b hb => Memory.read_write_other _ _ _ _ hb, rfl⟩

end Sys2Proof.Machine
end

section
/-! A decode step as a whole (43_mode_decoder.md rules R150, R151 and R156): the code word it runs, and what it can do
when it answers a next state. -/

namespace Sys2Proof.Machine

theorem coreStep_of_decode {s : State} (hbusy : s.status = .busy .decode) : coreStep s = decodeStep s := by
  rw [coreStep, hbusy]

theorem step_of_decode {s : State} (hops : s.hostOps = []) (hbusy : s.status = .busy .decode) :
    step s = decodeStep s := by
  rw [step_of_no_access hops, coreStep_of_decode hbusy]

theorem decodeStep_word {s : State} {i : Instr} {rest : List Bool} (h : decode s.context s.stream = .word i rest) :
    decodeStep s = afterCode (exec i (s.readTo rest)) := by
  rw [decodeStep_eq, h]

theorem decodeStep_dead {s : State} {e : ErrKind} {rest : List Bool}
    (h : decode s.context s.stream = .dead e rest) : decodeStep s = raiseError e (s.readTo rest) := by
  rw [decodeStep_eq, h]

theorem decodeStep_short {s : State} (h : decode s.context s.stream = .short) :
    decodeStep s = raiseError .endOfStream (s.readTo []) := by
  rw [decodeStep_eq, h]

/-- Settles O20: the step is the decoder's, and what is left is a tail of the stream. -/
theorem stepRunsTheDecodedInstruction : Obligations.StepRunsTheDecodedInstruction := by
  intro s i rest hops hbusy hd
  rw [step_of_decode hops hbusy]
  exact ⟨decodeStep_word hd, State.readTo_stream (scan_suffix.1 i rest hd)⟩

theorem context_eq_mode_iff (s : State) : s.context = .mode ↔ s.phase = .mode := by
  unfold State.context
  cases s.phase <;> simp

/-- Settles O21: the step raises what the decoder answers, whose error kind is that of the context. -/
theorem unreadableBitsEndTheJob : Obligations.UnreadableBitsEndTheJob := by
  intro s hops hbusy
  rw [step_of_decode hops hbusy]
  refine ⟨fun e rest hd => ⟨decodeStep_dead hd, ?_⟩, decodeStep_short⟩
  rw [deadKind_of_decode hd, ne_eq, ← context_eq_mode_iff]
  cases s.context <;> simp [deadKind]

/-! ## No decode step is stuck -/

theorem afterCode_nextOrOverflow {r : Result} (h : NextOrOverflow r)
    (hpair : ∀ u, r = .next u → NextOrOverflow (decodeStep u)) : NextOrOverflow (afterCode r) := by
  obtain ⟨u, rfl⟩ | rfl := h
  · rw [afterCode]
    split_ifs
    · exact .next u
    · exact hpair u rfl
    · exact lineComplete_cases u
    · exact .next u
  · exact .inr rfl

/-- A code word leaves fewer bits than there were. -/
theorem bitsLeft_lt_of_exec {s u : State} {i : Instr} {rest : List Bool}
    (hd : decode s.context s.stream = .word i rest) (hx : exec i (s.readTo rest) = .next u) :
    u.bitsLeft < s.bitsLeft := by
  have := State.readTo_bitsLeft hd
  have := (exec_pos hx).2.2
  omega

theorem decodeStep_nextOrOverflow (s : State) : NextOrOverflow (decodeStep s) := by
  obtain ⟨n, hn⟩ : ∃ n, s.bitsLeft = n := ⟨_, rfl⟩
  induction n using Nat.strong_induction_on generalizing s with
  | _ n ih =>
    cases hd : decode s.context s.stream with
    | dead e rest => rw [decodeStep_dead hd]; exact raiseError_nextOrOverflow _ _
    | short => rw [decodeStep_short hd]; exact raiseError_nextOrOverflow _ _
    | word i rest =>
      rw [decodeStep_word hd]
      have hwf : i.wellFormedIn (s.readTo rest).context = true := (onlyCodeWordsDecode _ _ _ _ hd).1
      refine afterCode_nextOrOverflow (exec_nextOrOverflow hwf) fun u hu => ?_
      exact ih _ (hn ▸ bitsLeft_lt_of_exec hd hu) u rfl

/-! ## The code words of an open pair -/

theorem raiseError_phase {e : ErrKind} {s t : State} (h : raiseError e s = .next t) : t.phase = .mode := by
  obtain ⟨u, -, -, rfl⟩ := raiseError_next h
  rfl

theorem horizontal_phase {r1 r2 : Nat} {s t : State} (h : horizontal r1 r2 s = .next t) : t.phase = .mode := by
  obtain ⟨-, hr⟩ | ⟨-, hr⟩ := horizontal_cases r1 r2 s <;> rw [hr] at h
  · exact raiseError_phase h
  · exact Host.Outcome.next.inj h ▸ rfl

theorem vertical_phase {k : Int} {s t : State} (hs : s.phase = .mode) (h : vertical k s = .next t) :
    t.phase = .mode := by
  obtain ⟨-, hr⟩ | ⟨a1, -, -, -, hr⟩ := vertical_cases k s <;> rw [hr] at h
  · exact raiseError_phase h
  · exact Host.Outcome.next.inj h ▸ hs

/-- A code word that leaves a pair open changes nothing but the phase (43_mode_decoder.md rule R158). -/
theorem exec_open_pair {i : Instr} {s u : State} (hwf : i.wellFormedIn s.context = true)
    (h : exec i s = .next u) (hopen : u.phase ≠ .mode) : u = s.setPhase u.phase := by
  rw [wellFormedIn_iff_mem_codeWords] at hwf
  cases hctx : s.context with
  | mode =>
    have hs : s.phase = .mode := (context_eq_mode_iff s).1 hctx
    rw [hctx] at hwf
    obtain rfl | rfl | ⟨code, hcode, rfl⟩ | rfl | rfl | rfl := modeCode_cases hwf
    · exact absurd (Host.Outcome.next.inj ((execP_cases s).symm.trans h) ▸ hs) hopen
    · exact (Host.Outcome.next.inj h).symm ▸ rfl
    · rw [exec_verticalCode hcode] at h
      exact absurd (vertical_phase hs h) hopen
    · exact absurd (raiseError_phase h) hopen
    · exact absurd (raiseError_phase h) hopen
    · obtain ⟨v, -, -, rfl⟩ := finishDecode_next h
      exact absurd rfl hopen
  | run c =>
    rw [hctx] at hwf
    obtain ⟨r, hr, rfl⟩ := exists_runRow_of_mem hwf
    rcases Nat.lt_or_ge r.value 64 with hlt | hge
    · rw [exec_terminating hr hctx hlt, closeRun] at h
      split at h
      · cases h
      · exact (Host.Outcome.next.inj h).symm ▸ rfl
      · exact absurd (horizontal_phase h) hopen
    · rw [exec_makeUp hr hctx hge] at h
      exact (Host.Outcome.next.inj h).symm ▸ rfl

/-! ## What a decode step can do -/

/-- The state inside a step: the bits read and the code words of an open pair have moved `pos` and the phase alone. -/
def State.inside (s : State) (p : Nat) (ph : Phase) : State := { s with pos := p, phase := ph }

/-- What a decode step of a running job does when it answers a next state. -/
inductive DecodeStepped (s t : State) : Prop
  /-- The job has ended, with success or with an error. -/
  | ended {p : Nat} {ph : Phase} {u : State} {st : Status} (final : (s.inside p ph).finalise = some u)
      (eq : t = { u with phase := .mode, status := st }) (result : st = .done ∨ ∃ e, st = .error e)
  /-- The last code word has moved the position, within the line. -/
  | moved {p : Nat} {ph : Phase} (after : s.pos < p) (within : p ≤ 8 * s.inLen) (moves : Moves (s.inside p ph) t)
      (phase : t.phase = .mode) (a0 : t.a0 ≤ t.width)
  /-- The last code word has moved the position past the line, and the line is completed. -/
  | completed {p : Nat} {ph : Phase} {u : State} (after : s.pos < p) (within : p ≤ 8 * s.inLen)
      (moves : Moves (s.inside p ph) u) (phase : u.phase = .mode) (a0 : u.width < u.a0)
      (line : lineComplete u = .next t)

theorem Moves.status {s t : State} (h : Moves s t) : t.status = s.status := by
  obtain ⟨l, hl⟩ := h.eq
  rw [hl]
  rfl

theorem readTo_pos_within {s : State} {i : Instr} {rest : List Bool}
    (h : decode s.context s.stream = .word i rest) :
    s.pos < (s.readTo rest).pos ∧ (s.readTo rest).pos ≤ 8 * s.inLen := by
  obtain ⟨-, hlt, hin⟩ := State.readTo_bitsLeft h
  refine ⟨?_, hin⟩
  show s.pos < s.pos + (s.stream.length - rest.length)
  rw [State.stream_length]
  omega

/-- A code word of an open pair is behind a step from there. -/
theorem DecodeStepped.after_pair {s t : State} {q : Nat} {ph : Phase} (hq : s.pos < q)
    (h : DecodeStepped (s.inside q ph) t) : DecodeStepped s t := by
  cases h with
  | ended final eq result => exact .ended final eq result
  | moved after within moves phase a0 => exact .moved (hq.trans after) within moves phase a0
  | completed after within moves phase a0 line => exact .completed (hq.trans after) within moves phase a0 line

theorem decodeStep_next {s t : State} (hbusy : s.status = .busy .decode) (h : decodeStep s = .next t) :
    DecodeStepped s t := by
  refine decodeStep_induct (P := fun s t => s.status = .busy .decode → DecodeStepped s t)
    ?raised ?stop ?pair h hbusy
  case raised =>
    intro s e rest t _ ht _
    obtain ⟨u, -, hu, rfl⟩ := raiseError_next ht
    exact .ended (p := (s.readTo rest).pos) (ph := s.phase) hu rfl (.inr ⟨e, rfl⟩)
  case stop =>
    intro s i rest u t hd hx hstop hbusy
    obtain ⟨hpos, hin⟩ := readTo_pos_within hd
    obtain hm | ⟨v, st, hv, rfl, hst⟩ := exec_moves_or_ends hx
    · have hrun : u.status = .busy .decode := hm.status.trans hbusy
      obtain ⟨hend, -⟩ | ⟨-, hphase, ha0, hline⟩ | ⟨-, hphase, ha0, rfl⟩ := hstop
      · exact absurd hrun hend
      · exact .completed (ph := s.phase) hpos hin hm hphase ha0 hline
      · exact .moved (ph := s.phase) hpos hin hm hphase ha0
    · obtain ⟨-, rfl⟩ | ⟨hrun, -⟩ | ⟨hrun, -⟩ := hstop
      · exact .ended (p := (s.readTo rest).pos) (ph := s.phase) hv rfl hst
      all_goals
        obtain rfl : st = .busy .decode := hrun
        simp at hst
  case pair =>
    intro s i rest u t hd hx hrun hopen _ ih _
    have hwf : i.wellFormedIn (s.readTo rest).context = true := (onlyCodeWordsDecode _ _ _ _ hd).1
    have hu : u = s.inside (s.readTo rest).pos u.phase := exec_open_pair hwf hx hopen
    exact .after_pair (readTo_pos_within hd).1 (hu ▸ ih hrun)

/-! ## The statements about a decode step -/

theorem Moves.lines {s t : State} (h : Moves s t) : t.lines = s.lines := by
  obtain ⟨l, hl⟩ := h.eq
  rw [hl]
  rfl

theorem Moves.pos {s t : State} (h : Moves s t) : t.pos = s.pos := by
  obtain ⟨l, hl⟩ := h.eq
  rw [hl]
  rfl

/-- What completing a line leaves of the counters and the cursor. -/
theorem lineComplete_counts {s t : State} (h : lineComplete s = .next t) :
    t.lines = s.lines + 1 ∧ t.pos = s.pos ∧ t.status = s.status ∧ t.phase = s.phase ∧ t.a0 = 0 := by
  obtain ⟨u, -, rfl, hframe, -⟩ := lineComplete_next h
  rw [hframe.eq]
  exact ⟨rfl, rfl, rfl, rfl, rfl⟩

theorem DecodeStepped.running_or_result {s t : State} (hbusy : s.status = .busy .decode) (h : DecodeStepped s t) :
    t.status = .busy .decode ∨ t.hasResult = true := by
  cases h with
  | ended final eq result =>
    subst eq
    rcases result with rfl | ⟨e, rfl⟩ <;> exact .inr rfl
  | moved after within moves phase a0 => exact .inl (moves.status.trans hbusy)
  | completed after within moves phase a0 line =>
    obtain ⟨-, -, hstatus, -⟩ := lineComplete_counts line
    exact .inl (hstatus.trans (moves.status.trans hbusy))

theorem DecodeStepped.lines_le {s t : State} (h : DecodeStepped s t) : t.lines ≤ s.lines + 1 := by
  cases h with
  | @ended p ph u st final eq result =>
    have hlines : u.lines = s.lines := by rw [(State.finalise_frame final).eq]; rfl
    rw [eq]
    exact hlines.trans_le (Nat.le_succ _)
  | moved after within moves phase a0 => exact moves.lines.trans_le (Nat.le_succ _)
  | completed after within moves phase a0 line =>
    obtain ⟨hlines, -⟩ := lineComplete_counts line
    exact (hlines.trans (congrArg (· + 1) moves.lines)).le

/-- While the job runs, a step has taken at least one bit of the input. -/
theorem DecodeStepped.pos {s t : State} (h : DecodeStepped s t) (hrun : t.status = .busy .decode) :
    s.pos < t.pos ∧ t.pos ≤ 8 * s.inLen := by
  cases h with
  | ended final eq result =>
    subst eq
    obtain rfl := hrun
    simp at result
  | moved after within moves phase a0 => exact moves.pos ▸ ⟨after, within⟩
  | completed after within moves phase a0 line =>
    obtain ⟨-, hpos, -⟩ := lineComplete_counts line
    exact hpos.trans moves.pos ▸ ⟨after, within⟩

/-- Settles O25: a step that answers has ended the job, moved the position or completed a line. -/
theorem everyDecodeStepConsumesABit : Obligations.EveryDecodeStepConsumesABit := by
  intro s hbusy hops
  rw [step_of_decode hops hbusy]
  refine ⟨decodeStep_nextOrOverflow s, fun t ht => ?_⟩
  have hstepped := decodeStep_next hbusy ht
  exact ⟨hstepped.lines_le, hstepped.pos⟩

/-- Settles O27: only the end of a job leaves an error, and it finalises the store. -/
theorem errorsKeepThePushedLines : Obligations.ErrorsKeepThePushedLines := by
  intro s t e hbusy hops ht herror
  rw [step_of_decode hops hbusy] at ht
  have running : t.status ≠ .busy .decode := by rw [herror]; simp
  cases decodeStep_next hbusy ht with
  | @ended p ph u st final eq result =>
    have hframe := State.finalise_frame final
    subst eq
    refine ⟨?_, ?_, ?_, hframe.below, hframe.grow⟩ <;> rw [hframe.eq] <;> rfl
  | moved after within moves phase a0 => exact absurd (moves.status.trans hbusy) running
  | completed after within moves phase a0 line =>
    obtain ⟨-, -, hstatus, -⟩ := lineComplete_counts line
    exact absurd (hstatus.trans (moves.status.trans hbusy)) running

end Sys2Proof.Machine
end

section
/-! What a step of a running job leaves unchanged, decode or encode (20_memory.md rules R61, R62 and R66, 40_bitio.md
rule R101). -/

namespace Sys2Proof.Machine

/-- The frame of a running job: the parameters, the configuration, the latched order, `IN` and the host's side are
unchanged, and the packer writes `OUT` from the old `OUT_LEN` up to the new one. -/
structure JobFrame (s t : State) : Prop where
  eq : t = { s with
    status := t.status, lines := t.lines, outLen := t.outLen, pos := t.pos, a0 := t.a0, color := t.color
    phase := t.phase, rpos := t.rpos, y := t.y, acc := t.acc, sel := t.sel, buf0 := t.buf0, buf1 := t.buf1
    store := t.store, outMem := t.outMem, ca := t.ca }
  acc : s.acc.length < 8 → t.acc.length < 8
  wf : Memory.wf s.outMem → Memory.wf t.outMem
  out : s.outLen ≤ s.params.maxOutBytes → t.outLen ≤ s.params.maxOutBytes
  grow : s.outLen ≤ t.outLen
  below : ∀ a, a < s.outLen → Memory.read t.outMem a = Memory.read s.outMem a
  above : ∀ a, t.outLen ≤ a → Memory.read t.outMem a = Memory.read s.outMem a

/-- What touches neither the packer nor `OUT` has the frame. -/
theorem JobFrame.of_no_output {s t : State}
    (eq : t = { s with
      status := t.status, lines := t.lines, pos := t.pos, a0 := t.a0, color := t.color, phase := t.phase
      rpos := t.rpos, y := t.y, sel := t.sel, buf0 := t.buf0, buf1 := t.buf1, store := t.store, ca := t.ca }) :
    JobFrame s t := by
  rw [eq]
  exact ⟨rfl, id, id, id, le_rfl, fun _ _ => rfl, fun _ _ => rfl⟩

theorem PackerFrame.jobFrame {s t : State} (h : PackerFrame s t) : JobFrame s t where
  eq := by rw [h.eq]
  acc := h.acc
  wf := h.wf
  out := h.out
  grow := h.grow
  below := h.below
  above := h.above

theorem JobFrame.params {s t : State} (h : JobFrame s t) : t.params = s.params := by rw [h.eq]

theorem JobFrame.trans {s t u : State} (h : JobFrame s t) (g : JobFrame t u) : JobFrame s u where
  eq := by rw [g.eq, h.eq]
  acc := g.acc ∘ h.acc
  wf := g.wf ∘ h.wf
  out := fun hs => h.params ▸ g.out (h.params.symm ▸ h.out hs)
  grow := h.grow.trans g.grow
  below := fun a ha => (g.below a (ha.trans_le h.grow)).trans (h.below a ha)
  above := fun a ha => (g.above a ha).trans (h.above a (g.grow.trans ha))

theorem JobFrame.inLen {s t : State} (h : JobFrame s t) : t.inLen = s.inLen := by
  rw [State.inLen, h.eq]
  rfl

/-- The bits left change with the cursor alone. -/
theorem JobFrame.stream {s t : State} (h : JobFrame s t) (hpos : t.pos = s.pos) : t.stream = s.stream := by
  have hbit : ∀ k, t.bit k = s.bit k := fun k => by rw [h.eq]; rfl
  simp only [State.stream, State.bitsFrom_eq_map, State.bitsLeft, h.inLen, hpos, hbit]

theorem Moves.jobFrame {s t : State} (h : Moves s t) : JobFrame s t := by
  obtain ⟨l, hl⟩ := h.eq
  refine .of_no_output ?_
  rw [hl]
  rfl

theorem lineComplete_jobFrame {s t : State} (h : lineComplete s = .next t) : JobFrame s t := by
  obtain ⟨u, -, rfl, hframe, -⟩ := lineComplete_next h
  have pushed : JobFrame s { s with
      store := s.store ++ [scanline s.width s.cur], lines := s.lines + 1, ca := u.ca } := .of_no_output rfl
  exact (pushed.trans hframe.jobFrame).trans (.of_no_output rfl)

theorem JobFrame.inside (s : State) (p : Nat) (ph : Phase) : JobFrame s (s.inside p ph) := .of_no_output rfl

theorem DecodeStepped.jobFrame {s t : State} (h : DecodeStepped s t) : JobFrame s t := by
  cases h with
  | @ended p ph u st final eq result =>
    rw [eq]
    exact ((JobFrame.inside s p ph).trans (State.finalise_frame final).jobFrame).trans (.of_no_output rfl)
  | @moved p ph after within moves phase a0 => exact (JobFrame.inside s p ph).trans moves.jobFrame
  | @completed p ph u after within moves phase a0 line =>
    exact ((JobFrame.inside s p ph).trans moves.jobFrame).trans (lineComplete_jobFrame line)

theorem startLine_jobFrame (s : State) : JobFrame s (startLine s) := by
  unfold startLine
  split <;> exact .of_no_output rfl

theorem codeStep_jobFrame {s t : State} (h : codeStep s = some t) : JobFrame s t :=
  (JobFrame.of_no_output (t := { s with a0 := t.a0, color := t.color }) rfl).trans (codeStep_frame h).jobFrame

theorem terminate_jobFrame {s t : State} (h : terminate s = .next t) : JobFrame s t := by
  obtain ⟨u, v, -, -, hframe, rfl⟩ := terminate_next h
  exact hframe.jobFrame.trans (.of_no_output rfl)

theorem encodeStep_jobFrame {s t : State} (h : encodeStep s = .next t) : JobFrame s t := by
  obtain ⟨-, u, hu, ht⟩ | ⟨-, hterm⟩ := encodeStep_next h
  · have hdecision := (startLine_jobFrame s).trans (codeStep_jobFrame hu)
    obtain ⟨-, rfl⟩ | ⟨-, rfl⟩ := ht
    · exact hdecision.trans (.of_no_output rfl)
    · exact hdecision
  · exact terminate_jobFrame hterm

/-- A step of a running job, with no access of the host pending. -/
theorem step_jobFrame {s t : State} (hbusy : s.isBusy = true) (hops : s.hostOps = []) (h : step s = .next t) :
    JobFrame s t := by
  rw [step_of_no_access hops] at h
  obtain ⟨hdecode, h⟩ | ⟨-, h⟩ | ⟨hidle, -⟩ := coreStep_next h
  · exact (decodeStep_next hdecode h).jobFrame
  · exact encodeStep_jobFrame h
  · simp [hbusy] at hidle

/-- Settles O34: the fields are among those that the frame keeps. -/
theorem coreWritesNoInput : Obligations.CoreWritesNoInput := by
  intro s t hbusy hops h
  rw [(step_jobFrame hbusy hops h).eq]
  exact ⟨rfl, rfl, rfl, rfl, rfl, rfl, rfl, rfl, hops, rfl, rfl⟩

/-- Settles O35: the frame's clauses about `OUT`. -/
theorem outIsWrittenInOrder : Obligations.OutIsWrittenInOrder := by
  intro s t hinv hbusy hops h
  have hframe := step_jobFrame hbusy hops h
  exact ⟨hframe.grow, hframe.out hinv.out, hframe.below, hframe.above⟩

end Sys2Proof.Machine
end

section
/-! The progress of the encoder (44_encoder.md rules R180, R187 and R189): a mode decision moves right, and a step is
one decision or the termination. -/

namespace Sys2Proof.Machine

theorem State.a0_lt_a2 {s : State} (h : s.a0 ≤ s.width) : s.a0 < s.a2 :=
  (State.a0_lt_a1 h).trans_le s.a1_le_a2

theorem JobFrame.width {s t : State} (h : JobFrame s t) : t.width = s.width := by
  rw [State.width, h.eq]
  rfl

theorem codeStep_a0 {s t : State} (ha0 : s.a0 ≤ s.width) (h : codeStep s = some t) :
    s.a0 < t.a0 ∧ t.a0 ≤ s.width + 1 := by
  obtain ⟨u, -, ⟨-, rfl⟩ | ⟨-, -, rfl⟩ | ⟨-, -, rfl⟩⟩ := codeStep_some h
  · exact ⟨State.a0_lt_b2 ha0, s.b2_le⟩
  · exact ⟨State.a0_lt_a1 ha0, s.a1_le⟩
  · exact ⟨State.a0_lt_a2 ha0, s.a2_le⟩

/-- Settles O45: the new position is `b2`, `a1` or `a2`, each right of `a0`. -/
theorem everyCodeStepMovesRight : Obligations.EveryCodeStepMovesRight := by
  intro s t ha0 h
  obtain ⟨hgt, hle⟩ := codeStep_a0 ha0 h
  exact ⟨hgt, hle, (codeStep_jobFrame h).width⟩

theorem step_of_encode {s : State} (hops : s.hostOps = []) (hbusy : s.status = .busy .encode) :
    step s = encodeStep s := by
  rw [step_of_no_access hops, coreStep, hbusy]

theorem encodeStep_decision {s t : State} (hy : s.y < s.height) (h : codeStep (startLine s) = some t) :
    encodeStep s = .next (if t.width < t.a0 then endLine t else t) := by
  rw [encodeStep, if_pos hy, h, orOverflow]

theorem encodeStep_terminate {s : State} (hy : s.height ≤ s.y) : encodeStep s = terminate s :=
  if_neg (Nat.not_lt.2 hy)

theorem State.outBits_length (s : State) : s.outBits.length = 8 * s.outLen + s.acc.length := by
  simp [State.outBits, List.length_flatMap, Nat.mul_comm]

/-- The termination has room for EOFB and the padding, and appends them (44_encoder.md rule R189). -/
theorem terminate_of_room {s : State} (hacc : s.acc.length < 8) (hwf : Memory.wf s.outMem)
    (hroom : s.outLen + (s.acc.length + 31) / 8 ≤ s.params.maxOutBytes) :
    ∃ t, terminate s = .next { t with status := .done } ∧ PackerFrame s t ∧ t.acc = [] ∧
      ∃ k, k < 8 ∧ t.outBits = s.outBits ++ encode .eofb ++ List.replicate k false := by
  have hlen : (encode .eofb).length = 24 := by decide
  have hout : s.outLen ≤ s.params.maxOutBytes := (Nat.le_add_right _ _).trans hroom
  obtain ⟨u, hu⟩ := (State.writeBits_isSome hacc hout (encode .eofb)).2 (by omega)
  have huf := State.writeBits_frame hu
  have huacc := huf.acc hacc
  have hbits := State.writeBits_outBits hwf hu
  have hflush : ∃ t, u.flush = some t := by
    by_cases hnil : u.acc = []
    · exact ⟨u, State.flush_of_acc_nil hnil⟩
    · refine ⟨_, State.flush_of_room huacc hnil ?_⟩
      have hcount : 8 * u.outLen + u.acc.length = 8 * s.outLen + s.acc.length + 24 := by
        rw [← u.outBits_length, hbits, List.length_append, s.outBits_length, hlen]
      have hpos := List.length_pos_iff.2 hnil
      rw [huf.jobFrame.params]
      omega
  obtain ⟨t, ht⟩ := hflush
  refine ⟨t, ?_, huf.trans (State.flush_frame ht), State.flush_acc huacc ht, (8 - u.acc.length) % 8,
    Nat.mod_lt _ (by decide), ?_⟩
  · rw [terminate, hu, Option.bind_some, ht, orOverflow]
  · rw [State.flush_outBits huacc (huf.wf hwf) ht, hbits]

/-- Settles O46: by `y` and `Hgt`; the decision ends the line or does not, the termination has room. -/
theorem encodeStepObligation : Obligations.EncodeStep := by
  intro s hops hbusy
  rw [step_of_encode hops hbusy]
  refine ⟨fun hy t ht => ?_, fun hy hacc hwf hroom => ?_⟩
  · rw [encodeStep_decision hy ht]
    exact ⟨fun hle => by rw [if_neg (Nat.not_lt.2 hle)], fun hlt => by rw [if_pos hlt]; rfl⟩
  · rw [encodeStep_terminate hy]
    obtain ⟨t, ht, hframe, hnil, k, hk, hbits⟩ := terminate_of_room hacc hwf hroom
    have heofb : encode .eofb = eol ++ eol := by decide
    refine ⟨_, k, ht, rfl, hnil, hk, ?_, ?_⟩
    · rw [heofb, ← List.append_assoc] at hbits
      exact hbits
    · rw [hframe.eq]

end Sys2Proof.Machine
end

section
/-! Jobs end (43_mode_decoder.md rule R156, 44_encoder.md rules R187 and R191): each step of a decode job takes a bit,
each step of an encode job moves the position right or ends a line. -/

namespace Sys2Proof.Machine

theorem runSteps_zero (s : State) : runSteps 0 s = .next s := rfl

theorem run_of_next {M : Host.Core} {s t : M.State} (h : M.step s = .next t) (n : Nat) :
    M.run (n + 1) s = M.run n t := by
  rw [Host.Core.run, h]

theorem run_of_refused {M : Host.Core} {s : M.State} {r : M.Refusal} (h : M.step s = .refused r) (n : Nat) :
    M.run (n + 1) s = .refused r := by
  rw [Host.Core.run, h]

theorem runSteps_succ {s t : State} (h : step s = .next t) (n : Nat) : runSteps (n + 1) s = runSteps n t :=
  run_of_next (M := Sys2Proof.core) h n

theorem runSteps_succ_refused {s : State} {r : Refusal} (h : step s = .refused r) (n : Nat) :
    runSteps (n + 1) s = .refused r :=
  run_of_refused (M := Sys2Proof.core) h n

/-- A run of at most `n` steps ends the job, or is refused because its output does not fit. -/
def EndsWithin (ended : State → Prop) (n : Nat) (s : State) : Prop :=
  ∃ k, k ≤ n ∧ ((∃ t, runSteps k s = .next t ∧ ended t) ∨ runSteps k s = .refused .outputOverflow)

section
variable {ended : State → Prop} {n : Nat} {s t : State}

theorem EndsWithin.refused (h : step s = .refused .outputOverflow) : EndsWithin ended (n + 1) s :=
  ⟨1, Nat.succ_le_succ (Nat.zero_le n), .inr (runSteps_succ_refused h 0)⟩

theorem EndsWithin.last (h : step s = .next t) (ht : ended t) : EndsWithin ended (n + 1) s :=
  ⟨1, Nat.succ_le_succ (Nat.zero_le n), .inl ⟨t, (runSteps_succ h 0).trans (runSteps_zero t), ht⟩⟩

theorem EndsWithin.step (h : step s = .next t) (ht : EndsWithin ended n t) : EndsWithin ended (n + 1) s := by
  obtain ⟨k, hk, hrun⟩ := ht
  exact ⟨k + 1, Nat.succ_le_succ hk, by rwa [runSteps_succ h]⟩

theorem EndsWithin.mono {m : Nat} (h : EndsWithin ended n s) (hm : n ≤ m) : EndsWithin ended m s := by
  obtain ⟨k, hk, hrun⟩ := h
  exact ⟨k, hk.trans hm, hrun⟩

end

/-! ## Decode jobs -/

theorem JobFrame.hostOps {s t : State} (h : JobFrame s t) : t.hostOps = s.hostOps := by rw [h.eq]

theorem decodeJob_endsWithin {s : State} (hbusy : s.status = .busy .decode) (hops : s.hostOps = []) :
    EndsWithin (·.hasResult = true) (s.bitsLeft + 1) s := by
  obtain ⟨n, hn⟩ : ∃ n, s.bitsLeft = n := ⟨_, rfl⟩
  induction n using Nat.strong_induction_on generalizing s with
  | _ n ih =>
    have hstep := step_of_decode hops hbusy
    obtain ⟨t, ht⟩ | hover := decodeStep_nextOrOverflow s
    · have hstepped := decodeStep_next hbusy ht
      obtain hrun | hres := hstepped.running_or_result hbusy
      · obtain ⟨hpos, hin⟩ := hstepped.pos hrun
        have hless : t.bitsLeft < s.bitsLeft := by
          simp only [State.bitsLeft, hstepped.jobFrame.inLen]
          omega
        have hrest := ih _ (hn ▸ hless) hrun (hstepped.jobFrame.hostOps.trans hops) rfl
        exact .step (hstep.trans ht) (hrest.mono hless)
      · exact .last (hstep.trans ht) hres
    · exact .refused (hstep.trans hover)

/-- Settles O26: at most `8·IN_LEN` bits are left, and each step that does not end the job takes one. -/
theorem decodeJobEnds : Obligations.DecodeJobEnds := by
  intro s _ hbusy hops
  have hleft : s.bitsLeft ≤ 8 * s.inLen := Nat.sub_le _ _
  exact (decodeJob_endsWithin hbusy hops).mono (Nat.succ_le_succ hleft)

/-! ## Encode jobs -/

/-- The mode decisions left, at most: a line has no more than `W + 1`, and of the current one no position left of
`a0` comes again (44_encoder.md rule R187). -/
def State.decisionsLeft (s : State) : Nat := (s.height - s.y) * (s.width + 1) - s.a0

theorem JobFrame.height {s t : State} (h : JobFrame s t) : t.height = s.height := by
  rw [State.height, h.eq]
  rfl

@[simp] theorem startLine_a0 (s : State) : (startLine s).a0 = s.a0 := by
  unfold startLine
  split <;> rfl

@[simp] theorem startLine_y (s : State) : (startLine s).y = s.y := by
  unfold startLine
  split <;> rfl

@[simp] theorem startLine_status (s : State) : (startLine s).status = s.status := by
  unfold startLine
  split <;> rfl

theorem codeStep_keeps {s t : State} (h : codeStep s = some t) : t.y = s.y ∧ t.status = s.status := by
  rw [(codeStep_frame h).eq]
  exact ⟨rfl, rfl⟩

/-- An encode step before the last line: a decision within the line, or the last one of it. -/
theorem encodeStep_before_end {s t : State} (ha0 : s.a0 ≤ s.width) (hy : s.y < s.height)
    (h : encodeStep s = .next t) :
    t.status = s.status ∧ t.a0 ≤ t.width ∧
      ((t.y = s.y ∧ s.a0 < t.a0) ∨ (t.y = s.y + 1 ∧ t.a0 = 0)) := by
  obtain ⟨-, u, hu, ht⟩ | ⟨hend, -⟩ := encodeStep_next h
  · have hwidth : (startLine s).width = s.width := (startLine_jobFrame s).width
    obtain ⟨hgt, -⟩ := codeStep_a0 (by simpa [hwidth] using ha0) hu
    obtain ⟨huy, hustatus⟩ := codeStep_keeps hu
    simp only [startLine_a0, startLine_y, startLine_status] at hgt huy hustatus
    obtain ⟨-, rfl⟩ | ⟨hle, rfl⟩ := ht
    · exact ⟨hustatus, Nat.zero_le _, .inr ⟨congrArg (· + 1) huy, rfl⟩⟩
    · exact ⟨hustatus, hle, .inl ⟨huy, hgt⟩⟩
  · omega

theorem decisionsLeft_lt {s t : State} (ha0 : s.a0 ≤ s.width) (hy : s.y < s.height) (h : encodeStep s = .next t) :
    t.decisionsLeft < s.decisionsLeft := by
  have hframe := encodeStep_jobFrame h
  obtain ⟨-, hle, hmove⟩ := encodeStep_before_end ha0 hy h
  obtain ⟨k, hk⟩ : ∃ k, s.height - s.y = k + 1 := ⟨s.height - s.y - 1, by omega⟩
  rw [hframe.width] at hle
  simp only [State.decisionsLeft, hframe.width, hframe.height, hk, Nat.succ_mul]
  obtain ⟨hsame, hgt⟩ | ⟨hnext, hzero⟩ := hmove
  · rw [hsame, hk, Nat.succ_mul]
    omega
  · rw [hnext, hzero, show s.height - (s.y + 1) = k by omega]
    omega

theorem encodeJob_endsWithin {s : State} (ha0 : s.a0 ≤ s.width) (hbusy : s.status = .busy .encode)
    (hops : s.hostOps = []) : EndsWithin (·.status = .done) (s.decisionsLeft + 1) s := by
  obtain ⟨n, hn⟩ : ∃ n, s.decisionsLeft = n := ⟨_, rfl⟩
  induction n using Nat.strong_induction_on generalizing s with
  | _ n ih =>
    have hstep := step_of_encode hops hbusy
    obtain ⟨t, ht⟩ | hover := encodeStep_cases s
    · rcases Nat.lt_or_ge s.y s.height with hy | hy
      · have hless := decisionsLeft_lt ha0 hy ht
        obtain ⟨hstatus, hle, -⟩ := encodeStep_before_end ha0 hy ht
        have hrest := ih _ (hn ▸ hless) hle (hstatus.trans hbusy) ((encodeStep_jobFrame ht).hostOps.trans hops) rfl
        exact .step (hstep.trans ht) (hrest.mono hless)
      · obtain ⟨u, v, -, -, -, rfl⟩ := terminate_next ((encodeStep_terminate hy).symm.trans ht)
        exact .last (hstep.trans ht) rfl
    · exact .refused (hstep.trans hover)

/-- Settles O47: from the first line on there are `Hgt·(W + 1)` decisions at most, and each step takes one of them. -/
theorem encodeJobEnds : Obligations.EncodeJobEnds := by
  intro s hinv hbusy hops
  have hjob := hinv.job (s.isBusy_iff.2 ⟨_, hbusy⟩)
  have hleft : s.decisionsLeft ≤ s.height * (s.width + 1) :=
    (Nat.sub_le _ _).trans (Nat.mul_le_mul_right _ (Nat.sub_le _ _))
  exact (encodeJob_endsWithin hjob.a0 hbusy hops).mono (Nat.succ_le_succ hleft)

end Sys2Proof.Machine
end

section
/-! Every step keeps the invariant of the states between steps (10_state.md rules R24, R27, R29, R37, R39, R42 and R43,
20_memory.md rules R62 and R64). -/

namespace Sys2Proof.Machine

/-! ## The two lines of a running job -/

/-- Both lines have the cells `0..W` with cell 0 White, and `color` is White at the start of a line (10_state.md rules
R27, R30 and R42). This also holds inside a step, where `a0` may be past the line. -/
structure LinesOk (s : State) : Prop where
  ref : LineOk s.width s.ref
  cur : LineOk s.width s.cur
  color : s.a0 = 0 → s.color = .white

theorem JobInv.linesOk {s : State} (h : JobInv s) : LinesOk s := by
  obtain ⟨href, hcur⟩ := (s.bufs_iff (LineOk s.width)).1 ⟨h.lines0, h.lines1⟩
  exact ⟨href, hcur, h.color⟩

theorem LinesOk.inside {s : State} (h : LinesOk s) (p : Nat) (ph : Phase) : LinesOk (s.inside p ph) :=
  ⟨h.ref, h.cur, h.color⟩

theorem PackerFrame.linesOk {s t : State} (h : PackerFrame s t) (hs : LinesOk s) : LinesOk t := by
  rw [h.eq]
  exact ⟨hs.ref, hs.cur, hs.color⟩

theorem Moves.ref {s t : State} (h : Moves s t) : t.ref = s.ref := by
  obtain ⟨l, hl⟩ := h.eq
  rw [hl]
  exact s.setCur_ref l

theorem LinesOk.moves {s t : State} (h : LinesOk s) (ha0 : s.a0 ≤ s.width) (hm : Moves s t) : LinesOk t := by
  have hwidth : t.width = s.width := hm.jobFrame.width
  refine ⟨?_, ⟨?_, hm.first h.cur.2 h.color⟩, fun h0 => ?_⟩
  · rw [hm.ref, hwidth]
    exact h.ref
  · rw [hm.length, hwidth]
    exact h.cur.1
  · obtain ⟨hcolor, hs0⟩ := hm.start ha0 h0
    exact hcolor.trans (h.color hs0)

/-- The lines swap roles at the end of a line (10_state.md rule R41). -/
theorem lineComplete_swaps {s t : State} (h : lineComplete s = .next t) :
    t.ref = s.cur ∧ t.cur = s.ref ∧ t.color = .white := by
  obtain ⟨u, -, rfl, hframe, -⟩ := lineComplete_next h
  rw [hframe.eq]
  exact ⟨s.nextLine_ref, s.nextLine_cur, rfl⟩

theorem LinesOk.lineComplete {s t : State} (h : LinesOk s) (ht : lineComplete s = .next t) : LinesOk t := by
  obtain ⟨href, hcur, hcolor⟩ := lineComplete_swaps ht
  have hwidth : t.width = s.width := (lineComplete_jobFrame ht).width
  exact ⟨by rw [href, hwidth]; exact h.cur, by rw [hcur, hwidth]; exact h.ref, fun _ => hcolor⟩

/-! ## Decode -/

theorem DecodeStepped.linesOk {s t : State} (h : DecodeStepped s t) (hs : LinesOk s) (ha0 : s.a0 ≤ s.width) :
    LinesOk t ∧ t.a0 ≤ t.width := by
  cases h with
  | @ended p ph u st final eq result =>
    have hframe := State.finalise_frame final
    have hu : LinesOk u := hframe.linesOk (hs.inside p ph)
    have hwithin : u.a0 ≤ u.width := by rw [hframe.eq]; exact ha0
    rw [eq]
    exact ⟨⟨hu.ref, hu.cur, hu.color⟩, hwithin⟩
  | @moved p ph after within moves phase a0 => exact ⟨(hs.inside p ph).moves ha0 moves, a0⟩
  | @completed p ph u after within moves phase a0 line =>
    obtain ⟨-, -, -, -, hzero⟩ := lineComplete_counts line
    exact ⟨((hs.inside p ph).moves ha0 moves).lineComplete line, hzero ▸ Nat.zero_le _⟩

theorem DecodeStepped.phase {s t : State} (h : DecodeStepped s t) : t.phase = .mode := by
  cases h with
  | ended final eq result => rw [eq]
  | moved after within moves phase a0 => exact phase
  | completed after within moves phase a0 line =>
    obtain ⟨-, -, -, hphase, -⟩ := lineComplete_counts line
    exact hphase.trans phase

theorem Moves.ca {s t : State} (h : Moves s t) : t.ca = s.ca := by
  obtain ⟨l, hl⟩ := h.eq
  rw [hl]
  rfl

theorem lineComplete_caFits {s t : State} (h : lineComplete s = .next t)
    (hs : s.ca.length ≤ s.params.maxOutBytes) : t.ca.length ≤ s.params.maxOutBytes := by
  obtain ⟨u, -, rfl, -, hca⟩ := lineComplete_next h
  exact hca hs

theorem DecodeStepped.caFits {s t : State} (h : DecodeStepped s t) (hs : s.ca.length ≤ s.params.maxOutBytes) :
    t.ca.length ≤ s.params.maxOutBytes := by
  cases h with
  | ended final eq result =>
    rw [eq, (State.finalise_frame final).eq]
    exact hs
  | moved after within moves phase a0 =>
    rw [moves.ca]
    exact hs
  | completed after within moves phase a0 line =>
    have hparams : _ = s.params := moves.jobFrame.params
    rw [← hparams] at hs ⊢
    exact lineComplete_caFits line (moves.ca ▸ hs)

/-! ## Encode -/

theorem startLine_of_start {s : State} (h : s.a0 = 0) : startLine s = loadLine s := if_pos h

theorem startLine_of_inside {s : State} (h : s.a0 ≠ 0) : startLine s = s := if_neg h

@[simp] theorem loadLine_ref (s : State) : (loadLine s).ref = s.ref := s.setCur_ref _

theorem LinesOk.startLine {s : State} (h : LinesOk s) : LinesOk (startLine s) := by
  by_cases h0 : s.a0 = 0
  · rw [startLine_of_start h0]
    exact ⟨by rw [loadLine_ref]; exact h.ref, by rw [loadLine_cur]; exact s.sourceLine_ok, h.color⟩
  · rw [startLine_of_inside h0]
    exact h

theorem codeStep_lines {s t : State} (h : codeStep s = some t) : t.ref = s.ref ∧ t.cur = s.cur :=
  ⟨(codeStep_frame h).ref, (codeStep_frame h).cur⟩

theorem LinesOk.codeStep {s t : State} (h : LinesOk s) (ha0 : s.a0 ≤ s.width) (ht : codeStep s = some t) :
    LinesOk t := by
  obtain ⟨href, hcur⟩ := codeStep_lines ht
  have hwidth : t.width = s.width := (codeStep_jobFrame ht).width
  obtain ⟨hgt, -⟩ := codeStep_a0 ha0 ht
  exact ⟨by rw [href, hwidth]; exact h.ref, by rw [hcur, hwidth]; exact h.cur, fun h0 => by omega⟩

theorem LinesOk.endLine {s : State} (h : LinesOk s) : LinesOk (endLine s) := by
  have href : (Machine.endLine s).ref = s.cur := s.nextLine_ref
  have hcur : (Machine.endLine s).cur = s.ref := s.nextLine_cur
  exact ⟨href ▸ h.cur, hcur ▸ h.ref, fun _ => rfl⟩

theorem LinesOk.encodeStep {s t : State} (h : LinesOk s) (ha0 : s.a0 ≤ s.width) (ht : encodeStep s = .next t) :
    LinesOk t ∧ t.a0 ≤ t.width := by
  obtain ⟨hy, u, hu, hut⟩ | ⟨-, hterm⟩ := encodeStep_next ht
  · have hstart : (Machine.startLine s).a0 ≤ (Machine.startLine s).width := by
      rwa [startLine_a0, (startLine_jobFrame s).width]
    have hlines : LinesOk u := h.startLine.codeStep hstart hu
    obtain ⟨-, rfl⟩ | ⟨hle, rfl⟩ := hut
    · exact ⟨hlines.endLine, Nat.zero_le _⟩
    · exact ⟨hlines, hle⟩
  · obtain ⟨u, v, -, -, hframe, rfl⟩ := terminate_next hterm
    have hv : LinesOk v := hframe.linesOk h
    have hwithin : v.a0 ≤ v.width := by rw [hframe.eq]; exact ha0
    exact ⟨⟨hv.ref, hv.cur, hv.color⟩, hwithin⟩

/-- What an encode step leaves of the decoder's fields. -/
theorem encodeStep_keeps {s t : State} (h : encodeStep s = .next t) :
    t.pos = s.pos ∧ t.ca = s.ca ∧ t.phase = s.phase := by
  obtain ⟨-, u, hu, hut⟩ | ⟨-, hterm⟩ := encodeStep_next h
  · have hstart : (startLine s).pos = s.pos ∧ (startLine s).ca = s.ca ∧ (startLine s).phase = s.phase := by
      unfold startLine
      split <;> exact ⟨rfl, rfl, rfl⟩
    have hdecision : u.pos = (startLine s).pos ∧ u.ca = (startLine s).ca ∧ u.phase = (startLine s).phase := by
      rw [(codeStep_frame hu).eq]
      exact ⟨rfl, rfl, rfl⟩
    obtain ⟨hpos, hca, hphase⟩ := hdecision
    obtain ⟨hspos, hsca, hsphase⟩ := hstart
    obtain ⟨-, rfl⟩ | ⟨-, rfl⟩ := hut <;> exact ⟨hpos.trans hspos, hca.trans hsca, hphase.trans hsphase⟩
  · obtain ⟨u, v, -, -, hframe, rfl⟩ := terminate_next hterm
    rw [hframe.eq]
    exact ⟨rfl, rfl, rfl⟩

/-! ## The invariant -/

theorem JobFrame.jobInv {s t : State} (h : JobFrame s t) (hs : JobInv s) (hlines : LinesOk t)
    (ha0 : t.a0 ≤ t.width) (hpos : t.pos ≤ 8 * s.inLen) : JobInv t := by
  obtain ⟨h0, h1⟩ := (t.bufs_iff (LineOk t.width)).2 ⟨hlines.ref, hlines.cur⟩
  refine ⟨?_, ?_, ?_, h0, h1, ha0, hlines.color, ?_⟩
  · rw [h.width, h.params]
    exact hs.width
  · rw [h.inLen, h.params]
    exact hs.inLen
  · rw [h.eq]
    exact hs.order
  · rw [h.inLen]
    exact hpos

theorem JobFrame.inv {s t : State} (h : JobFrame s t) (hs : Inv s) (hca : t.ca.length ≤ s.params.maxOutBytes)
    (hphase : t.phase = .mode) (hjob : t.isBusy = true → JobInv t) : Inv t where
  inWf := by rw [h.eq]; exact hs.inWf
  outWf := h.wf hs.outWf
  modeBits := by rw [h.eq]; exact hs.modeBits
  acc := h.acc hs.acc
  out := by rw [h.params]; exact h.out hs.out
  caFits := by rw [h.params]; exact hca
  phase := hphase
  job := hjob

theorem Inv.decodeStep {s t : State} (h : Inv s) (hbusy : s.status = .busy .decode)
    (ht : decodeStep s = .next t) : Inv t := by
  have hjob := h.job (s.isBusy_iff.2 ⟨_, hbusy⟩)
  have hstepped := decodeStep_next hbusy ht
  refine hstepped.jobFrame.inv h (hstepped.caFits h.caFits) hstepped.phase fun hrun => ?_
  obtain ⟨hlines, ha0⟩ := hstepped.linesOk hjob.linesOk hjob.a0
  obtain hrun' | hres := hstepped.running_or_result hbusy
  · exact hstepped.jobFrame.jobInv hjob hlines ha0 (hstepped.pos hrun').2
  · rw [hasResult_of_busy hrun] at hres
    cases hres

theorem Inv.encodeStep {s t : State} (h : Inv s) (hbusy : s.status = .busy .encode)
    (ht : encodeStep s = .next t) : Inv t := by
  have hjob := h.job (s.isBusy_iff.2 ⟨_, hbusy⟩)
  obtain ⟨hpos, hca, hphase⟩ := encodeStep_keeps ht
  obtain ⟨hlines, ha0⟩ := hjob.linesOk.encodeStep hjob.a0 ht
  have hframe := encodeStep_jobFrame ht
  exact hframe.inv h (hca ▸ h.caFits) (hphase.trans h.phase) fun _ =>
    hframe.jobInv hjob hlines ha0 (hpos ▸ hjob.pos)

theorem Inv.coreStep {s t : State} (h : Inv s) (ht : coreStep s = .next t) : Inv t := by
  obtain ⟨hbusy, hd⟩ | ⟨hbusy, he⟩ | ⟨-, rfl⟩ := coreStep_next ht
  · exact h.decodeStep hbusy hd
  · exact h.encodeStep hbusy he
  · exact h

/-- The host's side is no part of the invariant. -/
theorem Inv.hostSide {s : State} (h : Inv s) (ops : List HostOp) (d : HostData) (f : Nat) :
    Inv { s with hostOps := ops, hostData := d, fresh := f } where
  inWf := h.inWf
  outWf := h.outWf
  modeBits := h.modeBits
  acc := h.acc
  out := h.out
  caFits := h.caFits
  phase := h.phase
  job := fun hbusy => by
    obtain ⟨hwidth, hin, horder, h0, h1, ha0, hcolor, hpos⟩ := h.job hbusy
    exact ⟨hwidth, hin, horder, h0, h1, ha0, hcolor, hpos⟩

/-- A START that is accepted meets what the invariant asks of a job (10_state.md rules R21, R25 and R28). -/
theorem Inv.startJob {s t : State} {j : Job} (h : Inv s) (ht : startJob j s = .next t) : Inv t := by
  obtain ⟨-, hlow, hhigh, hin, -, rfl⟩ := startJob_next.1 ht
  refine ⟨h.inWf, h.outWf, h.modeBits, Nat.succ_pos 7, Nat.zero_le _, ?_, rfl, fun _ => ?_⟩
  · show (if j = .decode ∧ s.colourStore then [] else s.ca).length ≤ _
    split
    · exact Nat.zero_le _
    · exact h.caFits
  · exact ⟨⟨hlow, hhigh⟩, hin, rfl, newRow_ok _, newRow_ok _, Nat.zero_le _, fun _ => rfl, Nat.zero_le _⟩

theorem Inv.hostReset {s : State} (h : Inv s) : Inv (hostReset s) where
  inWf := h.inWf
  outWf := resetHasTheInvariant.outWf
  modeBits := resetHasTheInvariant.modeBits
  acc := resetHasTheInvariant.acc
  out := Nat.zero_le _
  caFits := Nat.zero_le _
  phase := rfl
  job := fun hbusy => by simp [State.isBusy, Machine.hostReset, State.reset] at hbusy

/-- The unlisted bits of `CFG_MODE` ignore writes (10_state.md section 2). -/
theorem mode_mask (v : Reg) : v &&& 3 &&& 3 = v &&& 3 := by
  rw [BitVec.and_assoc, BitVec.and_self]

theorem Inv.hostStep {s t : State} {op : HostOp} (h : Inv s) (ht : hostStep op s = .next t) : Inv t := by
  obtain hread | ⟨hidle, hwrite⟩ | ⟨j, hstart⟩ | rfl := hostStep_next ht
  · rw [hread]
    exact h.hostSide s.hostOps t.hostData t.fresh
  · have nojob : ∀ u : State, u.status = s.status → u.isBusy = true → JobInv u := fun u hu hbusy => by
      rw [State.isBusy, hu] at hbusy
      exact absurd (hidle.symm.trans hbusy) (by decide)
    obtain ⟨v, rfl⟩ | ⟨v, rfl⟩ | ⟨v, rfl⟩ | ⟨v, rfl⟩ | ⟨v, rfl⟩ | ⟨a, v, rfl⟩ := hwrite
    · exact ⟨h.inWf, h.outWf, h.modeBits, h.acc, h.out, h.caFits, h.phase, nojob _ rfl⟩
    · exact ⟨h.inWf, h.outWf, mode_mask v, h.acc, h.out, h.caFits, h.phase, nojob _ rfl⟩
    · exact ⟨h.inWf, h.outWf, h.modeBits, h.acc, h.out, h.caFits, h.phase, nojob _ rfl⟩
    · exact ⟨h.inWf, h.outWf, h.modeBits, h.acc, h.out, h.caFits, h.phase, nojob _ rfl⟩
    · exact ⟨h.inWf, h.outWf, h.modeBits, h.acc, h.out, h.caFits, h.phase, nojob _ rfl⟩
    · exact ⟨Memory.write_wf h.inWf _ _, h.outWf, h.modeBits, h.acc, h.out, h.caFits, h.phase, nojob _ rfl⟩
  · exact h.startJob hstart
  · exact h.hostReset

/-- Settles O28: a step is one of the core or an access of the host, in the state with the access taken. -/
theorem stepKeepsTheInvariant : Obligations.StepKeepsTheInvariant := by
  intro s t h ht
  have htaken : ∀ ops, Inv { s with hostOps := ops } := fun ops => h.hostSide ops s.hostData s.fresh
  obtain ⟨ops, -, hcore⟩ | ⟨op, ops, -, -, hhost⟩ := step_next ht
  · exact (htaken ops).coreStep hcore
  · exact (htaken ops).hostStep hhost

end Sys2Proof.Machine
end

section
/-! Horizontal as one step (43_mode_decoder.md rule R158): `H`, the code words of a run of `color`, those of a run of
its opposite, and the close of the pair. -/

namespace Sys2Proof.Machine

theorem decode_encode_mode {s : State} {i : Instr} {rest : List Bool} (hphase : s.phase = .mode)
    (hi : i.wellFormedIn .mode = true) (hstream : s.stream = encode i ++ rest) :
    decode s.context s.stream = .word i rest := by
  rw [(context_eq_mode_iff s).2 hphase, hstream, decode_encode_append hi]

/-- A step at a mode code runs it, whatever follows. -/
theorem decodeStep_modeCode {s : State} {i : Instr} {rest : List Bool} (hphase : s.phase = .mode)
    (hi : i.wellFormedIn .mode = true) (hstream : s.stream = encode i ++ rest) :
    decodeStep s = afterCode (exec i (s.readTo rest)) :=
  decodeStep_word (decode_encode_mode hphase hi hstream)

/-- A step in the first run of a pair reads it, and goes on in the second run. -/
theorem decodeStep_firstRun {s : State} {n : Nat} {codes : List Instr} {rest : List Bool}
    (hbusy : s.status = .busy .decode) (hphase : s.phase = .run1 0) (hrun : CodesOfRun s.color n codes)
    (hstream : s.stream = codes.flatMap encode ++ rest) :
    decodeStep s = decodeStep ((s.readTo rest).setPhase (.run2 n 0)) := by
  have hclose : closeRun n (s.readTo rest) = .next ((s.readTo rest).setPhase (.run2 n 0)) := by
    simp [closeRun, State.readTo, State.setPhase, hphase]
  rw [decodeStep_codesOfRun hrun hbusy (State.context_of_run1 hphase) hstream, hclose]
  exact afterCode_of_pair hbusy (by simp [State.setPhase])

/-- A step in the second run of a pair reads it, and closes the pair. -/
theorem decodeStep_secondRun {s : State} {r1 n : Nat} {codes : List Instr} {rest : List Bool}
    (hbusy : s.status = .busy .decode) (hphase : s.phase = .run2 r1 0) (hrun : CodesOfRun (invert s.color) n codes)
    (hstream : s.stream = codes.flatMap encode ++ rest) :
    decodeStep s = afterCode (horizontal r1 n (s.readTo rest)) := by
  have hclose : closeRun n (s.readTo rest) = horizontal r1 n (s.readTo rest) := by
    simp [closeRun, State.readTo, hphase]
  rw [decodeStep_codesOfRun hrun hbusy (State.context_of_run2 hphase) hstream, hclose]

theorem decodeStep_horizontal {s : State} {n1 n2 : Nat} {codes1 codes2 : List Instr} {rest : List Bool}
    (hbusy : s.status = .busy .decode) (hphase : s.phase = .mode) (hrun1 : CodesOfRun s.color n1 codes1)
    (hrun2 : CodesOfRun (invert s.color) n2 codes2)
    (hstream : s.stream = encode .h ++ (codes1.flatMap encode ++ (codes2.flatMap encode ++ rest))) :
    decodeStep s = afterCode (horizontal n1 n2 (s.readTo rest)) := by
  obtain ⟨mid2, hmid2⟩ : ∃ mid2, mid2 = codes2.flatMap encode ++ rest := ⟨_, rfl⟩
  obtain ⟨mid1, hmid1⟩ : ∃ mid1, mid1 = codes1.flatMap encode ++ mid2 := ⟨_, rfl⟩
  rw [← hmid2, ← hmid1] at hstream
  have hsuffix1 : mid1 <:+ s.stream := ⟨_, hstream.symm⟩
  have hsuffix2 : mid2 <:+ mid1 := ⟨_, hmid1.symm⟩
  have hopen : decodeStep s = decodeStep ((s.readTo mid1).setPhase (.run1 0)) := by
    rw [decodeStep_modeCode hphase rfl hstream]
    exact afterCode_of_pair (u := (s.readTo mid1).setPhase (.run1 0)) hbusy (by simp [State.setPhase])
  have hstream1 : ((s.readTo mid1).setPhase (.run1 0)).stream = mid1 := by
    rw [State.stream_setPhase, State.readTo_stream hsuffix1]
  have hfirst : decodeStep s = decodeStep ((s.readTo mid2).setPhase (.run2 n1 0)) := by
    rw [hopen, decodeStep_firstRun (s := (s.readTo mid1).setPhase (.run1 0)) hbusy rfl hrun1
      (hstream1.trans hmid1), State.readTo_setPhase, State.readTo_readTo hsuffix1 hsuffix2]
    rfl
  have hstream2 : ((s.readTo mid2).setPhase (.run2 n1 0)).stream = mid2 := by
    rw [State.stream_setPhase, State.readTo_stream (hsuffix2.trans hsuffix1)]
  rw [hfirst, decodeStep_secondRun (s := (s.readTo mid2).setPhase (.run2 n1 0)) hbusy rfl hrun2
    (hstream2.trans hmid2), State.readTo_setPhase,
    State.readTo_readTo (hsuffix2.trans hsuffix1) ⟨_, hmid2.symm⟩, horizontal_setPhase]

/-- A step that ends the job stops. -/
theorem afterCode_raiseError (e : ErrKind) (s : State) : afterCode (raiseError e s) = raiseError e s := by
  obtain ⟨t, ht⟩ | hover := raiseError_nextOrOverflow e s
  · obtain ⟨u, -, -, htu⟩ := raiseError_next ht
    have hended : t.status ≠ .busy .decode := by rw [htu]; simp
    rw [ht, afterCode, if_pos hended]
  · rw [hover, afterCode]

/-- Rows of make-up codes and a terminating row are the code words of the run of their sum. -/
theorem codesOfRun_rows {c : Colour} {makeUps : List RunRow} {last : RunRow}
    (hmakeUps : ∀ r ∈ makeUps, r ∈ runRows c ∧ 64 ≤ r.value) (hlast : last ∈ runRows c) (hlt : last.value < 64) :
    CodesOfRun c ((makeUps ++ [last]).map (·.value)).sum ((makeUps ++ [last]).map (·.instr)) := by
  induction makeUps with
  | nil => simpa using CodesOfRun.terminating hlast hlt
  | cons r rows ih =>
    obtain ⟨⟨hr, hge⟩, hrows⟩ := List.forall_mem_cons.1 hmakeUps
    exact .makeUp hr hge (ih hrows)

/-- Settles O22: the rows are the code words of two runs, and the close of the pair is in bounds or not. -/
theorem horizontalStep : Obligations.HorizontalStep := by
  intro s m1 m2 t1 t2 rest hbusy hphase hm1 ht1 hlt1 hm2 ht2 hlt2 hstream
  have hbits : ∀ rows : List RunRow, rows.flatMap (fun r => encode r.instr) =
      (rows.map (·.instr)).flatMap encode := fun rows => (List.flatMap_map _ _ _).symm
  rw [hbits, hbits, List.append_assoc, List.append_assoc] at hstream
  rw [decodeStep_horizontal hbusy hphase (codesOfRun_rows hm1 ht1 hlt1) (codesOfRun_rows hm2 ht2 hlt2) hstream]
  have hmode : (s.readTo rest).phase = .mode := hphase
  simp only
  split
  case isTrue hover => rw [horizontal_of_overrun hover, afterCode_raiseError]
  case isFalse hfits =>
    rw [horizontal_of_fits (Nat.not_lt.1 hfits), ← hmode]
    rfl

end Sys2Proof.Machine
end

section
/-! The decoder inverts the encoder (44_encoder.md rules R184 to R186, 43_mode_decoder.md rules R157 to R166): on the
bits of a mode decision, from the same reference line, position and colour, the decoder fills the encoder's pixels. -/

namespace Sys2Proof.Machine

/-! ## The pixels of the coding line between the changing elements -/

section
variable {e : State} (hcoded : cell e.cur e.a0 = e.color)
include hcoded

theorem State.cell_before_a1 {p : Nat} (hp : e.a0 ≤ p) (hlt : p < e.a1) : cell e.cur p = e.color := by
  have := e.a1_le
  rw [← hcoded]
  exact cell_eq_before_nextChanging hp (by omega) hlt

theorem State.cell_at_a1 (ha0 : e.a0 ≤ e.width) (h : e.a1 ≤ e.width) : cell e.cur e.a1 = invert e.color := by
  have hgt := State.a0_lt_a1 ha0
  obtain hnone | ⟨-, -, hchg⟩ := nextChanging_eq_or_changes e.cur e.width e.a0
  · have : e.a1 = e.width + 1 := hnone
    omega
  · have hbefore : cell e.cur (e.a1 - 1) = e.color := State.cell_before_a1 hcoded (by omega) (by omega)
    rw [← hbefore]
    exact (ne_iff_eq_invert _ _).1 hchg

theorem State.cell_before_a2 (ha0 : e.a0 ≤ e.width) {p : Nat} (hp : e.a1 ≤ p) (hlt : p < e.a2) :
    cell e.cur p = invert e.color := by
  have := e.a2_le
  rw [← State.cell_at_a1 hcoded ha0 (by omega)]
  exact cell_eq_before_nextChanging hp (by omega) hlt

theorem State.cell_at_a2 (ha0 : e.a0 ≤ e.width) (h : e.a2 ≤ e.width) : cell e.cur e.a2 = e.color := by
  have := e.a1_le_a2
  have hgt : e.a1 < e.a2 := leastAfter_gt _ (by omega)
  obtain hnone | ⟨-, -, hchg⟩ := nextChanging_eq_or_changes e.cur e.width e.a1
  · have : e.a2 = e.width + 1 := hnone
    omega
  · have hbefore : cell e.cur (e.a2 - 1) = invert e.color :=
      State.cell_before_a2 hcoded ha0 (by omega) (by omega)
    have hchanged := (ne_iff_eq_invert _ _).1 (show cell e.cur e.a2 ≠ cell e.cur (e.a2 - 1) from hchg)
    rw [hchanged, hbefore, invert_invert]

/-- After a mode decision too, the coding line has `color` at the position. -/
theorem codeStep_coded (ha0 : e.a0 ≤ e.width) {e' : State} (h : codeStep e = some e') (hwithin : e'.a0 ≤ e.width) :
    cell e.cur e'.a0 = e'.color := by
  obtain ⟨u, hu, hcases⟩ := codeStep_some h
  have hcolor : u.color = e.color := by rw [(State.writeBits_frame hu).eq]
  obtain ⟨hpass, rfl⟩ | ⟨-, -, rfl⟩ | ⟨-, -, rfl⟩ := hcases
  · exact (State.cell_before_a1 hcoded (State.a0_lt_b2 ha0).le hpass).trans hcolor.symm
  · exact State.cell_at_a1 hcoded ha0 hwithin
  · exact (State.cell_at_a2 hcoded ha0 hwithin).trans hcolor.symm

end

/-! ## The two sides at a mode decision -/

/-- An encoder and a decoder at the same point of the same image: the decoder has the encoder's reference line, position
and colour, and the encoder's pixels up to the position. -/
structure Agree (e d : State) : Prop where
  width : e.width = d.width
  ref : e.ref = d.ref
  a0 : e.a0 = d.a0
  color : e.color = d.color
  within : e.a0 ≤ e.width
  length : d.cur.length = d.width + 1
  coded : cell e.cur e.a0 = e.color
  same : ∀ p, 1 ≤ p → p < e.a0 → cell d.cur p = cell e.cur p

theorem Agree.readTo {e d : State} (h : Agree e d) (rest : List Bool) : Agree e (d.readTo rest) :=
  ⟨h.width, h.ref, h.a0, h.color, h.within, h.length, h.coded, h.same⟩

theorem Agree.b1 {e d : State} (h : Agree e d) : e.b1 = d.b1 := by
  rw [State.b1, State.b1, h.ref, h.color, h.width, h.a0]

theorem Agree.b2 {e d : State} (h : Agree e d) : e.b2 = d.b2 := by
  rw [State.b2, State.b2, h.ref, h.width, h.b1]

/-- What the decoder's state `d'` after a mode decision is, where the encoder has moved to position `q` and colour
`c`. -/
structure Follows (e d : State) (q : Nat) (c : Colour) (d' : State) : Prop where
  a0 : d'.a0 = q
  color : d'.color = c
  same : ∀ p, 1 ≤ p → p < q → cell d'.cur p = cell e.cur p
  eq : d' = { d.setCur d'.cur with a0 := d'.a0, color := d'.color }

/-- The state with another current line, moved to position `q` and colour `c`. -/
def State.movedTo (d : State) (l : List Colour) (q : Nat) (c : Colour) : State :=
  { d.setCur l with a0 := q, color := c }

@[simp] theorem State.movedTo_cur (d : State) (l : List Colour) (q : Nat) (c : Colour) : (d.movedTo l q c).cur = l :=
  d.setCur_cur l

theorem Follows.movedTo {e d : State} {l : List Colour} {q : Nat} {c : Colour}
    (same : ∀ p, 1 ≤ p → p < q → cell l p = cell e.cur p) :
    Follows e d q c (d.movedTo l q c) where
  a0 := rfl
  color := rfl
  same := by rwa [State.movedTo_cur]
  eq := by
    rw [State.movedTo_cur]
    rfl

/-- A fill with `color` from `a0` on is right up to `a1`. -/
theorem Agree.fill_before_a1 {e d : State} (h : Agree e d) {m p : Nat} (hm : m ≤ e.a1) (h1 : 1 ≤ p) (hp : p < m) :
    cell (fill d.cur d.a0 m d.color) p = cell e.cur p := by
  have hle := e.a1_le
  have hlen : p < d.cur.length := by rw [h.length, ← h.width]; omega
  rw [cell_fill, ← h.a0, ← h.color]
  split
  case isTrue hin => exact (State.cell_before_a1 h.coded hin.1 (by omega)).symm
  case isFalse hout => exact h.same p h1 (by omega)

theorem Agree.pass {e d : State} (h : Agree e d) (hpass : e.b2 < e.a1) :
    ∃ d', exec .p d = .next d' ∧ Follows e d e.b2 e.color d' := by
  refine ⟨d.movedTo (fill d.cur d.a0 e.b2 d.color) e.b2 e.color, ?_,
    .movedTo fun p => h.fill_before_a1 hpass.le⟩
  rw [h.b2, h.color]
  exact execP_cases d

theorem Agree.vertical {e d : State} (h : Agree e d) {code : Instr} (hcode : verticalCode e.a1 e.b1 = some code) :
    ∃ d', exec code d = .next d' ∧ Follows e d e.a1 (invert e.color) d' := by
  obtain ⟨k, hmem, hk⟩ := verticalCode_some hcode
  have hgt := State.a0_lt_a1 h.within
  have hle := e.a1_le
  obtain ⟨-, hfill, -⟩ := verticalMovesToA1 _ hmem d
  have hexec := hfill e.a1 (by rw [← h.b1]; exact hk) (h.a0 ▸ hgt) (h.width ▸ hle)
  refine ⟨d.movedTo (fill d.cur d.a0 e.a1 d.color) e.a1 (invert e.color), ?_,
    .movedTo fun p => h.fill_before_a1 le_rfl⟩
  rw [h.color]
  exact hexec

/-- The two fills of a pair are right up to `a2`. -/
theorem Agree.fill_before_a2 {e d : State} (h : Agree e d) {p : Nat} (h1 : 1 ≤ p) (hp : p < e.a2) :
    cell (fill (fill d.cur d.runStart e.a1 d.color) e.a1 e.a2 (invert d.color)) p = cell e.cur p := by
  have hle := e.a2_le
  have hlen : p < d.cur.length := by rw [h.length, ← h.width]; omega
  have hstart : d.runStart = max e.a0 1 := by rw [State.runStart, h.a0]
  rw [cell_fill, cell_fill, fill_length, hstart, ← h.color]
  split
  case isTrue hin => exact (State.cell_before_a2 h.coded h.within hin.1 hp).symm
  case isFalse hout =>
    split
    case isTrue hin => exact (State.cell_before_a1 h.coded (by omega) hin.2.1).symm
    case isFalse hout' => exact h.same p h1 (by omega)

theorem Agree.horizontal {e d : State} (h : Agree e d) (hphase : d.phase = .mode) :
    ∃ d', horizontal (e.a1 - e.runStart) (e.a2 - e.a1) d = .next d' ∧ Follows e d e.a2 e.color d' := by
  have hgt := State.a0_lt_a1 h.within
  have hle := e.a1_le_a2
  have hbound := e.a2_le
  have hstart : d.runStart = max e.a0 1 := by rw [State.runStart, h.a0]
  have hend1 : d.runStart + (e.a1 - e.runStart) = e.a1 := by rw [hstart, State.runStart]; omega
  have hend2 : d.runStart + (e.a1 - e.runStart) + (e.a2 - e.a1) = e.a2 := by omega
  have hexec := horizontal_of_fits (s := d) (r1 := e.a1 - e.runStart) (r2 := e.a2 - e.a1)
    (by rw [hend2, ← h.width]; exact hbound)
  rw [hend2, hend1] at hexec
  refine ⟨d.movedTo (fill (fill d.cur d.runStart e.a1 d.color) e.a1 e.a2 (invert d.color)) e.a2 e.color, ?_,
    .movedTo fun p => h.fill_before_a2⟩
  rw [hexec, h.color, ← hphase]
  rfl

theorem verticalCode_wellFormed {a1 b1 : Nat} {code : Instr} (h : verticalCode a1 b1 = some code) :
    code.wellFormedIn .mode = true := by
  have table : ∀ row ∈ verticalCodes, row.1.wellFormedIn .mode = true := by decide
  obtain ⟨k, hmem, -⟩ := verticalCode_some h
  exact table _ hmem

/-- A decode step on the bits of a mode decision makes the encoder's move. -/
theorem Agree.decodeStep {e e' d : State} {rest : List Bool} (h : Agree e d) (hstep : codeStep e = some e')
    (hbusy : d.status = .busy .decode) (hphase : d.phase = .mode) (hstream : d.stream = e.decisionBits ++ rest) :
    ∃ d', decodeStep d = afterCode (.next d') ∧ Follows e (d.readTo rest) e'.a0 e'.color d' := by
  obtain ⟨u, hu, hcases⟩ := codeStep_some hstep
  have hcolor : u.color = e.color := by rw [(State.writeBits_frame hu).eq]
  have hr := h.readTo rest
  unfold State.decisionBits at hstream
  obtain ⟨hpass, rfl⟩ | ⟨hpass, ⟨code, hcode⟩, rfl⟩ | ⟨hpass, hfar, rfl⟩ := hcases
  · rw [if_pos hpass] at hstream
    obtain ⟨d', hexec, hfollows⟩ := hr.pass hpass
    exact ⟨d', by rw [decodeStep_modeCode hphase rfl hstream, hexec], hcolor ▸ hfollows⟩
  · rw [if_neg hpass, hcode] at hstream
    obtain ⟨d', hexec, hfollows⟩ := hr.vertical hcode
    exact ⟨d', by rw [decodeStep_modeCode hphase (verticalCode_wellFormed hcode) hstream, hexec], hfollows⟩
  · rw [if_neg hpass, hfar, State.horizontalBits, h.color, List.append_assoc, List.append_assoc] at hstream
    obtain ⟨d', hexec, hfollows⟩ := hr.horizontal hphase
    exact ⟨d', by rw [decodeStep_horizontal hbusy hphase (codesOfRun_runCodes _ _) (codesOfRun_runCodes _ _)
      hstream, hexec], hcolor ▸ hfollows⟩

/-- Settles O48: the hypotheses are that the two sides agree, and the step makes the encoder's move. -/
theorem decoderInvertsTheEncoder : Obligations.DecoderInvertsTheEncoder := by
  intro e e' d rest hwidth href ha0 hcolor hwithin _ hlength hcoded hsame hstep hbusy hphase hstream
  have h : Agree e d := ⟨hwidth, href, ha0, hcolor, hwithin, hlength, hcoded, hsame⟩
  obtain ⟨d', hd', hfollows⟩ := h.decodeStep hstep hbusy hphase hstream
  exact ⟨d', hd', hfollows.a0, hfollows.color, hfollows.same, codeStep_coded hcoded hwithin hstep,
    hfollows.eq⟩

end Sys2Proof.Machine
end

section
/-! Two decode steps side by side: when two states that are related stay so over a step, whatever the relation. -/

namespace Sys2Proof.Machine

/-- Two results: next states that are related, or results of which the step stops with at least one. -/
def Paired (R : State → State → Prop) (Stop : Result → Result → Prop) (r r' : Result) : Prop :=
  (∃ t t', r = .next t ∧ r' = .next t' ∧ R t t') ∨ Stop r r'

/-- What keeps a relation over a decode step: it holds over each part of the step, and the step goes the same way on
both sides. -/
structure DecodeRelation (R : State → State → Prop) (Stop : Result → Result → Prop) : Prop where
  context : ∀ {s s'}, R s s' → s.context = s'.context
  stream : ∀ {s s'}, R s s' → s.stream = s'.stream
  status : ∀ {s s'}, R s s' → s.status = s'.status
  phase : ∀ {s s'}, R s s' → s.phase = s'.phase
  atEnd : ∀ {s s'}, R s s' → (s.width < s.a0 ↔ s'.width < s'.a0)
  readTo : ∀ {s s'}, R s s' → ∀ rest, R (s.readTo rest) (s'.readTo rest)
  raised : ∀ {s s'}, R s s' → ∀ e, Paired R Stop (raiseError e s) (raiseError e s')
  exec : ∀ {s s'}, R s s' → ∀ i, Paired R Stop (exec i s) (exec i s')
  line : ∀ {s s'}, R s s' → s.width < s.a0 → Paired R Stop (lineComplete s) (lineComplete s')
  after : ∀ {r r'}, Stop r r' → Stop (afterCode r) (afterCode r')

theorem DecodeRelation.decodeStep {R : State → State → Prop} {Stop : Result → Result → Prop}
    (hR : DecodeRelation R Stop) {s s' : State} (h : R s s') : Paired R Stop (decodeStep s) (decodeStep s') := by
  obtain ⟨n, hn⟩ : ∃ n, s.bitsLeft = n := ⟨_, rfl⟩
  induction n using Nat.strong_induction_on generalizing s s' with
  | _ n ih =>
    have hd' : decode s'.context s'.stream = decode s.context s.stream := by rw [hR.context h, hR.stream h]
    cases hd : decode s.context s.stream with
    | dead e rest =>
      rw [decodeStep_dead hd, decodeStep_dead (hd'.trans hd)]
      exact hR.raised (hR.readTo h rest) e
    | short =>
      rw [decodeStep_short hd, decodeStep_short (hd'.trans hd)]
      exact hR.raised (hR.readTo h []) _
    | word i rest =>
      rw [decodeStep_word hd, decodeStep_word (hd'.trans hd)]
      obtain ⟨u, u', hu, hu', huu⟩ | hstop := hR.exec (hR.readTo h rest) i
      · rw [hu, hu', afterCode, afterCode, ← hR.status huu, ← hR.phase huu]
        simp only [← hR.atEnd huu]
        split_ifs with hend hopen hwidth
        · exact .inl ⟨u, u', rfl, rfl, huu⟩
        · exact ih _ (hn ▸ bitsLeft_lt_of_exec hd hu) huu rfl
        · exact hR.line huu hwidth
        · exact .inl ⟨u, u', rfl, rfl, huu⟩
      · exact .inr (hR.after hstop)

/-- The forms of the meanings, as functions of the state: one shared operation for each kind of code word. -/
theorem exec_eq_forms (i : Instr) :
    exec i = execP ∨ exec i = execH ∨ (∃ k, exec i = vertical k) ∨
      exec i = raiseError .extensionNotSupported ∨ exec i = finishDecode ∨
      ∃ table v, exec i = runCode table v := by
  obtain hmode | ⟨c, hrun⟩ := mem_codeWords_some i
  · obtain rfl | rfl | ⟨code, hcode, rfl⟩ | rfl | rfl | rfl := modeCode_cases hmode
    · exact .inl rfl
    · exact .inr (.inl rfl)
    · exact .inr (.inr (.inl ⟨_, funext (exec_verticalCode hcode)⟩))
    · exact .inr (.inr (.inr (.inl rfl)))
    · exact .inr (.inr (.inr (.inl rfl)))
    · exact .inr (.inr (.inr (.inr (.inl rfl))))
  · obtain ⟨r, hr, rfl⟩ := exists_runRow_of_mem hrun
    obtain ⟨table, -, -, hexec⟩ := exec_runRow c r hr
    exact .inr (.inr (.inr (.inr (.inr ⟨table, r.value, funext hexec⟩))))

end Sys2Proof.Machine
end

section
/-! The variant of the store (42_store.md rule R140): a decode step, without the variant and what it writes, is that of
the state without them. -/

namespace Sys2Proof.Machine

/-- The end of a job, without the variant: the phase and `STATUS` are written. -/
theorem raiseError_withoutVariant {e : ErrKind} {s t : State} (h : raiseError e s = .next t) :
    t.withoutVariant = { s.withoutVariant with phase := .mode, status := .error e } := by
  obtain ⟨u, hframe, -, rfl⟩ := raiseError_next h
  rw [hframe.eq]
  rfl

theorem finishDecode_withoutVariant {s t : State} (h : finishDecode s = .next t) :
    t.withoutVariant = { s.withoutVariant with phase := .mode, status := .done } := by
  obtain ⟨u, hframe, -, rfl⟩ := finishDecode_next h
  rw [hframe.eq]
  rfl

/-- The end of a line, without the variant: the line is received, and the next one starts. -/
theorem lineComplete_withoutVariant {s t : State} (h : lineComplete s = .next t) :
    t.withoutVariant = (s.withoutVariant.received (scanline s.width s.cur)).nextLine := by
  obtain ⟨u, -, rfl, hframe, -⟩ := lineComplete_next h
  rw [hframe.eq]
  rfl

/-- Without the variant nothing is in progress, and finalising the store does nothing. -/
theorem State.finalise_withoutVariant (s : State) : s.withoutVariant.finalise = some s.withoutVariant := by
  have hnil : s.withoutVariant.acc = [] := rfl
  rw [State.finalise, State.flush_of_acc_nil hnil, ite_self]

theorem raiseError_of_withoutVariant (e : ErrKind) (s : State) :
    raiseError e s.withoutVariant = .next { s.withoutVariant with phase := .mode, status := .error e } := by
  rw [raiseError, s.finalise_withoutVariant, orOverflow]

theorem finishDecode_of_withoutVariant (s : State) :
    finishDecode s.withoutVariant = .next { s.withoutVariant with phase := .mode, status := .done } := by
  rw [finishDecode, s.finalise_withoutVariant, orOverflow]

theorem horizontal_withoutVariant {r1 r2 : Nat} {s t : State} (h : horizontal r1 r2 s = .next t) :
    horizontal r1 r2 s.withoutVariant = .next t.withoutVariant := by
  obtain ⟨hover, hr⟩ | ⟨hfits, hr⟩ := horizontal_cases r1 r2 s
  · rw [horizontal_of_overrun (s := s.withoutVariant) hover, raiseError_of_withoutVariant,
      raiseError_withoutVariant (hr.symm.trans h)]
  · obtain rfl := Host.Outcome.next.inj (hr.symm.trans h)
    exact horizontal_of_fits (s := s.withoutVariant) hfits

theorem vertical_withoutVariant {k : Int} {s t : State} (h : vertical k s = .next t) :
    vertical k s.withoutVariant = .next t.withoutVariant := by
  by_cases hout : (s.width : Int) + 1 < (s.b1 : Int) + k ∨ (s.b1 : Int) + k ≤ s.a0
  · have hraise : vertical k s.withoutVariant = raiseError .outOfBounds s.withoutVariant := if_pos hout
    rw [vertical, if_pos hout] at h
    rw [hraise, raiseError_of_withoutVariant, raiseError_withoutVariant h]
  · rw [vertical, if_neg hout] at h
    obtain rfl := Host.Outcome.next.inj h
    exact if_neg hout

theorem runCode_withoutVariant {table : Option Colour} {v : Nat} {s t : State} (h : runCode table v s = .next t) :
    runCode table v s.withoutVariant = .next t.withoutVariant := by
  have hphase : s.withoutVariant.phase = s.phase := rfl
  have hcolor : s.withoutVariant.color = s.color := rfl
  unfold runCode at h ⊢
  rw [hphase, hcolor]
  cases hp : s.phase with
  | mode => simp [hp] at h
  | run1 tot =>
    simp only [hp] at h ⊢
    split at h
    case isFalse => cases h
    case isTrue htable =>
      rw [if_pos htable]
      split at h <;> rename_i hv
      · rw [if_pos hv, ← Host.Outcome.next.inj h]
        rfl
      · rw [if_neg hv, ← Host.Outcome.next.inj h]
        rfl
  | run2 r1 tot =>
    simp only [hp] at h ⊢
    split at h
    case isFalse => cases h
    case isTrue htable =>
      rw [if_pos htable]
      split at h <;> rename_i hv
      · rw [if_pos hv]
        exact horizontal_withoutVariant h
      · rw [if_neg hv, ← Host.Outcome.next.inj h]
        rfl

/-- The meaning of a code word does not look at the variant. -/
theorem exec_withoutVariant {i : Instr} {s t : State} (h : exec i s = .next t) :
    exec i s.withoutVariant = .next t.withoutVariant := by
  obtain hi | hi | ⟨k, hi⟩ | hi | hi | ⟨table, v, hi⟩ := exec_eq_forms i <;> rw [hi] at h ⊢
  · rw [execP_cases, ← Host.Outcome.next.inj ((execP_cases s).symm.trans h)]
    rfl
  · rw [← Host.Outcome.next.inj h]
    rfl
  · exact vertical_withoutVariant h
  · rw [raiseError_of_withoutVariant, raiseError_withoutVariant h]
  · rw [finishDecode_of_withoutVariant, finishDecode_withoutVariant h]
  · exact runCode_withoutVariant h

/-- The states differ at most in the variant of the store and in what it writes. -/
def SameButVariant (s s' : State) : Prop := s.withoutVariant = s'.withoutVariant

/-- What does not look at the variant is the same of both. -/
theorem SameButVariant.congr {s s' : State} (h : SameButVariant s s') {α : Type} (f : State → α)
    (hf : ∀ u, f (State.withoutVariant u) = f u) : f s = f s' :=
  calc f s = f s.withoutVariant := (hf s).symm
    _ = f s'.withoutVariant := congrArg f h
    _ = f s' := hf s'

/-- At least one side has no next state, as where its variant has no room. -/
def OneStops (r r' : Result) : Prop := (∀ t, r ≠ .next t) ∨ ∀ t, r' ≠ .next t

/-- Results are paired, up to a side that stops, when next states are related. -/
theorem paired_of_next {R : State → State → Prop} {r r' : Result}
    (h : ∀ t t', r = .next t → r' = .next t' → R t t') : Paired R OneStops r r' := by
  cases r with
  | fault f => exact .inr (.inl fun t => by simp)
  | refused x => exact .inr (.inl fun t => by simp)
  | next t =>
    cases r' with
    | fault f => exact .inr (.inr fun t => by simp)
    | refused x => exact .inr (.inr fun t => by simp)
    | next t' => exact .inl ⟨t, t', rfl, rfl, h t t' rfl rfl⟩

theorem afterCode_stops {r : Result} (h : ∀ t, r ≠ .next t) : afterCode r = r := by
  cases r with
  | next t => exact absurd rfl (h t)
  | fault f => rfl
  | refused x => rfl

theorem State.stream_withoutVariant (s : State) : s.withoutVariant.stream = s.stream := by
  rw [State.stream, State.stream, State.bitsFrom_eq_map, State.bitsFrom_eq_map]
  rfl

theorem State.readTo_withoutVariant (s : State) (rest : List Bool) :
    (s.readTo rest).withoutVariant = s.withoutVariant.readTo rest := by
  rw [State.readTo, State.readTo, State.stream_withoutVariant]
  rfl

theorem sameButVariant_decodeRelation : DecodeRelation SameButVariant OneStops where
  context := fun h => h.congr State.context fun _ => rfl
  stream := fun h => h.congr State.stream State.stream_withoutVariant
  status := fun h => h.congr State.status fun _ => rfl
  phase := fun h => h.congr State.phase fun _ => rfl
  atEnd := fun h => by rw [h.congr State.width fun _ => rfl, h.congr State.a0 fun _ => rfl]
  readTo := fun h rest => by
    rw [SameButVariant, State.readTo_withoutVariant, State.readTo_withoutVariant, h]
  raised := fun h e => paired_of_next fun t t' ht ht' => by
    rw [SameButVariant, raiseError_withoutVariant ht, raiseError_withoutVariant ht', h]
  exec := fun h i => paired_of_next fun t t' ht ht' => by
    have hsame := (exec_withoutVariant ht).symm.trans (h ▸ exec_withoutVariant ht')
    exact Host.Outcome.next.inj hsame
  line := fun h _ => paired_of_next fun t t' ht ht' => by
    rw [SameButVariant, lineComplete_withoutVariant ht, lineComplete_withoutVariant ht', h,
      h.congr State.width fun _ => rfl, h.congr State.cur fun _ => rfl]
  after := fun h => h.imp (fun h => by rwa [afterCode_stops h]) fun h => by rwa [afterCode_stops h]

/-- Settles O33: the relation is kept over every part of a decode step. -/
theorem variantDoesNotMatter : Obligations.VariantDoesNotMatter := by
  intro s s' t t' hbusy hops hsame ht ht'
  have hsame : SameButVariant s s' := hsame
  have hbusy' : s'.status = .busy .decode := (hsame.congr State.status fun _ => rfl).symm.trans hbusy
  have hops' : s'.hostOps = [] := (hsame.congr State.hostOps fun _ => rfl).symm.trans hops
  rw [step_of_decode hops hbusy] at ht
  rw [step_of_decode hops' hbusy'] at ht'
  obtain ⟨u, u', hu, hu', huu⟩ | hstop := sameButVariant_decodeRelation.decodeStep hsame
  · obtain rfl := Host.Outcome.next.inj (hu.symm.trans ht)
    obtain rfl := Host.Outcome.next.inj (hu'.symm.trans ht')
    exact huu
  · exact (hstop.elim (fun h => h t ht) fun h => h t' ht').elim

end Sys2Proof.Machine
end

section
/-! Stale pixels (10_state.md rule R43, 70_reset_and_hazards.md rule R229): the cells of the current line that the line
has not reached are never looked at, and are filled before they are pushed. -/

namespace Sys2Proof.Machine

/-! ## Lines that agree up to a position -/

/-- Two lines of one length with the same cells left of a position. -/
def AgreeBelow (n : Nat) (l l' : List Colour) : Prop := l'.length = l.length ∧ ∀ p, p < n → cell l' p = cell l p

theorem AgreeBelow.mono {n m : Nat} {l l' : List Colour} (h : AgreeBelow n l l') (hm : m ≤ n) : AgreeBelow m l l' :=
  ⟨h.1, fun p hp => h.2 p (hp.trans_le hm)⟩

/-- A fill from within the agreement on makes the lines agree up to its end. -/
theorem AgreeBelow.fill {n a q : Nat} {l l' : List Colour} {c : Colour} (h : AgreeBelow n l l') (ha : a ≤ n) :
    AgreeBelow (max q n) (fill l a q c) (fill l' a q c) := by
  obtain ⟨hlength, hsame⟩ := h
  refine ⟨by rw [fill_length, fill_length, hlength], fun p hp => ?_⟩
  rw [cell_fill, cell_fill, hlength]
  split
  · rfl
  · by_cases hn : p < n
    · exact hsame p hn
    · have hbeyond : l.length ≤ p := by omega
      have hbeyond' : l'.length ≤ p := hlength ▸ hbeyond
      rw [cell, cell, List.getD_eq_default _ _ hbeyond, List.getD_eq_default _ _ hbeyond']

/-- Lines that agree up to their length are one line. -/
theorem AgreeBelow.eq {n : Nat} {l l' : List Colour} (h : AgreeBelow n l l') (hn : l.length ≤ n) : l' = l := by
  obtain ⟨hlength, hsame⟩ := h
  refine List.ext_getElem hlength fun p hp' hp => ?_
  have hcell := hsame p (hp.trans_le hn)
  rwa [cell, cell, List.getD_eq_getElem _ _ hp', List.getD_eq_getElem _ _ hp] at hcell

/-! ## The state with another current line -/

theorem State.setCur_setCur (s : State) (l m : List Colour) : (s.setCur l).setCur m = s.setCur m := by
  cases h : s.sel <;> simp [State.setCur, h]

/-- Both lines have the cells `0..W`, and fewer than 8 bits are in progress: what the relation of the two sides needs
besides. -/
structure Sized (s : State) : Prop where
  ref : s.ref.length = s.width + 1
  cur : s.cur.length = s.width + 1
  acc : s.acc.length < 8

theorem PackerFrame.sized {s t : State} (h : PackerFrame s t) (hs : Sized s) : Sized t := by
  have hacc := h.acc hs.acc
  rw [h.eq] at hacc ⊢
  exact ⟨hs.ref, hs.cur, hacc⟩

theorem Moves.sized {s t : State} (h : Moves s t) (hs : Sized s) : Sized t := by
  have hwidth : t.width = s.width := h.jobFrame.width
  exact ⟨by rw [h.ref, hwidth, hs.ref], by rw [h.length, hwidth, hs.cur], h.jobFrame.acc hs.acc⟩

theorem Sized.exec {i : Instr} {s t : State} (hs : Sized s) (h : exec i s = .next t) : Sized t := by
  obtain hm | ⟨u, st, hu, rfl, -⟩ := exec_moves_or_ends h
  · exact hm.sized hs
  · obtain ⟨href, hcur, hacc⟩ := (State.finalise_frame hu).sized hs
    exact ⟨href, hcur, hacc⟩

theorem Sized.raiseError {e : ErrKind} {s t : State} (hs : Sized s) (h : raiseError e s = .next t) : Sized t := by
  obtain ⟨u, hframe, -, rfl⟩ := raiseError_next h
  obtain ⟨href, hcur, hacc⟩ := hframe.sized hs
  exact ⟨href, hcur, hacc⟩

theorem Sized.lineComplete {s t : State} (hs : Sized s) (h : lineComplete s = .next t) : Sized t := by
  obtain ⟨href, hcur, -⟩ := lineComplete_swaps h
  have hframe := lineComplete_jobFrame h
  exact ⟨by rw [href, hframe.width, hs.cur], by rw [hcur, hframe.width, hs.ref], hframe.acc hs.acc⟩

/-- Finalisation does not look at the lines. -/
theorem State.finalise_setCur {s : State} (hacc : s.acc.length < 8) (l : List Colour) :
    (s.setCur l).finalise = s.finalise.map (·.setCur l) := by
  have hflushed : (s.setCur l).flushed = s.flushed.setCur l := by
    unfold State.flushed
    by_cases h : s.flushes
    · rw [if_pos h, if_pos (show (s.setCur l).flushes from h)]
      rfl
    · rw [if_neg h, if_neg (show ¬ (s.setCur l).flushes from h)]
  rw [State.finalise_eq hacc, State.finalise_eq (s := s.setCur l) hacc, hflushed]
  by_cases h : s.flushFits
  · rw [if_pos h, if_pos (show (s.setCur l).flushFits from h), Option.map_some]
  · rw [if_neg h, if_neg (show ¬ (s.setCur l).flushFits from h), Option.map_none]

/-! ## The relation of the two sides -/

theorem SameButStale.refl (s : State) : SameButStale s s := ⟨⟨s.cur, s.setCur_self.symm⟩, rfl, fun _ _ => rfl⟩

theorem sameButStale_setCur {s : State} {l : List Colour} (h : AgreeBelow (max s.a0 1) s.cur l) :
    SameButStale s (s.setCur l) :=
  ⟨⟨l, rfl⟩, by rw [State.setCur_cur, h.1], fun p hp => by rw [State.setCur_cur, h.2 p hp]⟩

theorem SameButStale.cases {s s' : State} (h : SameButStale s s') :
    ∃ l, s' = s.setCur l ∧ AgreeBelow (max s.a0 1) s.cur l := by
  obtain ⟨⟨l, rfl⟩, hlength, hsame⟩ := h
  rw [State.setCur_cur] at hlength
  exact ⟨l, rfl, hlength, fun p hp => by rw [← hsame p hp, State.setCur_cur]⟩

/-- Filling both lines up to the new position keeps the relation. -/
theorem sameButStale_movedTo {s : State} {l m m' : List Colour} {q : Nat} (c : Colour)
    (h : AgreeBelow (max q 1) m m') : SameButStale (s.movedTo m q c) ((s.setCur l).movedTo m' q c) := by
  have heq : (s.setCur l).movedTo m' q c = (s.movedTo m q c).setCur m' := by
    rw [State.movedTo, State.movedTo, State.setCur_setCur, ← s.setCur_setCur m m']
    rfl
  rw [heq]
  refine sameButStale_setCur ?_
  rw [State.movedTo_cur]
  exact h

theorem SameButStale.setPhase {s s' : State} (h : SameButStale s s') (ph : Phase) :
    SameButStale (s.setPhase ph) (s'.setPhase ph) := by
  obtain ⟨l, rfl, hagree⟩ := h.cases
  exact sameButStale_setCur (s := s.setPhase ph) hagree

/-- The one outcome of both sides where neither has a next state. -/
def BothStop (r r' : Result) : Prop := r = r' ∧ ∀ t, r ≠ .next t

theorem bothStop_refused (r : Refusal) : BothStop (.refused r) (.refused r) := ⟨rfl, fun t => by simp⟩

/-- Ending a job does not look at the lines. -/
theorem paired_finalise {s s' : State} (h : SameButStale s s') (hacc : s.acc.length < 8) (st : Status) :
    Paired SameButStale BothStop (orOverflow s.finalise fun t => .next { t with phase := .mode, status := st })
      (orOverflow s'.finalise fun t => .next { t with phase := .mode, status := st }) := by
  obtain ⟨l, rfl, hagree⟩ := h.cases
  rw [State.finalise_setCur hacc]
  cases hu : s.finalise with
  | none => exact .inr (bothStop_refused _)
  | some u =>
    have hframe := State.finalise_frame hu
    have ha0 : u.a0 = s.a0 := by rw [hframe.eq]
    rw [← hframe.cur, ← ha0] at hagree
    exact .inl ⟨_, _, rfl, rfl, sameButStale_setCur (s := { u with phase := .mode, status := st }) hagree⟩

theorem paired_raiseError {s s' : State} (h : SameButStale s s') (hacc : s.acc.length < 8) (e : ErrKind) :
    Paired SameButStale BothStop (raiseError e s) (raiseError e s') :=
  paired_finalise h hacc _

theorem paired_finishDecode {s s' : State} (h : SameButStale s s') (hacc : s.acc.length < 8) :
    Paired SameButStale BothStop (finishDecode s) (finishDecode s') :=
  paired_finalise h hacc _

theorem paired_execP {s s' : State} (h : SameButStale s s') : Paired SameButStale BothStop (execP s) (execP s') := by
  obtain ⟨l, rfl, hagree⟩ := h.cases
  have hb2 : (s.setCur l).b2 = s.b2 := by simp [State.b2, State.b1]
  have hfill := (hagree.fill (q := s.b2) (c := s.color) (le_max_left s.a0 1)).mono
    (max_le_max le_rfl (le_max_right s.a0 1))
  rw [execP_cases, execP_cases, hb2, State.setCur_cur]
  exact .inl ⟨_, _, rfl, rfl, sameButStale_movedTo s.color hfill⟩

theorem paired_vertical {s s' : State} (h : SameButStale s s') (hacc : s.acc.length < 8) (k : Int) :
    Paired SameButStale BothStop (vertical k s) (vertical k s') := by
  have hraise := paired_raiseError h hacc .outOfBounds
  obtain ⟨l, rfl, hagree⟩ := h.cases
  have hb1 : (s.setCur l).b1 = s.b1 := by simp [State.b1]
  unfold vertical
  simp only [hb1, State.setCur_width, State.setCur_a0, State.setCur_cur, State.setCur_color]
  split_ifs
  · exact hraise
  · have hfill := (hagree.fill (q := ((s.b1 : Int) + k).toNat) (c := s.color) (le_max_left s.a0 1)).mono
      (max_le_max le_rfl (le_max_right s.a0 1))
    exact .inl ⟨_, _, rfl, rfl, sameButStale_movedTo (invert s.color) hfill⟩

theorem paired_horizontal {s s' : State} (h : SameButStale s s') (hacc : s.acc.length < 8) (r1 r2 : Nat) :
    Paired SameButStale BothStop (horizontal r1 r2 s) (horizontal r1 r2 s') := by
  have hraise := paired_raiseError h hacc .outOfBounds
  obtain ⟨l, rfl, hagree⟩ := h.cases
  have hstart : (s.setCur l).runStart = s.runStart := rfl
  unfold horizontal
  simp only [hstart, State.setCur_width, State.setCur_cur, State.setCur_color]
  split_ifs
  · exact hraise
  · have hfirst := hagree.fill (q := s.runStart + r1) (c := s.color) (show s.runStart ≤ max s.a0 1 from le_rfl)
    have hboth := (hfirst.fill (q := s.runStart + r1 + r2) (c := invert s.color) (le_max_left _ _)).mono
      (max_le_max le_rfl ((le_max_right s.a0 1).trans (le_max_right _ _)))
    exact .inl ⟨_, _, rfl, rfl, (sameButStale_movedTo s.color hboth).setPhase .mode⟩

theorem paired_runCode {s s' : State} (h : SameButStale s s') (hacc : s.acc.length < 8) (table : Option Colour)
    (v : Nat) : Paired SameButStale BothStop (runCode table v s) (runCode table v s') := by
  have hhorizontal := paired_horizontal h hacc
  have hphase := h.setPhase
  obtain ⟨l, rfl, -⟩ := h.cases
  unfold runCode
  rw [State.setCur_phase, State.setCur_color]
  cases s.phase with
  | mode => exact .inr (bothStop_refused _)
  | run1 tot =>
    simp only
    split_ifs
    · exact .inl ⟨_, _, rfl, rfl, hphase _⟩
    · exact .inl ⟨_, _, rfl, rfl, hphase _⟩
    · exact .inr (bothStop_refused _)
  | run2 r1 tot =>
    simp only
    split_ifs
    · exact hhorizontal _ _
    · exact .inl ⟨_, _, rfl, rfl, hphase _⟩
    · exact .inr (bothStop_refused _)

theorem paired_exec {s s' : State} (h : SameButStale s s') (hacc : s.acc.length < 8) (i : Instr) :
    Paired SameButStale BothStop (exec i s) (exec i s') := by
  obtain hi | hi | ⟨k, hi⟩ | hi | hi | ⟨table, v, hi⟩ := exec_eq_forms i <;> rw [hi]
  · exact paired_execP h
  · exact .inl ⟨_, _, rfl, rfl, h.setPhase _⟩
  · exact paired_vertical h hacc k
  · exact paired_raiseError h hacc _
  · exact paired_finishDecode h hacc
  · exact paired_runCode h hacc table v

/-- Past the line nothing is stale: both sides are one state. -/
theorem SameButStale.eq_of_complete {s s' : State} (h : SameButStale s s') (hs : Sized s) (ha0 : s.width < s.a0) :
    s' = s := by
  obtain ⟨l, rfl, hagree⟩ := h.cases
  have hlength := hs.cur
  rw [hagree.eq (by omega), State.setCur_self]

/-! ## A decode step -/

/-- What is kept over a decode step: the two sides differ in stale cells alone, and have their sizes. -/
def StaleRelation (s s' : State) : Prop := SameButStale s s' ∧ Sized s

theorem Paired.sized {r r' : Result} (h : Paired SameButStale BothStop r r') (hs : ∀ t, r = .next t → Sized t) :
    Paired StaleRelation BothStop r r' :=
  h.imp (fun ⟨t, t', ht, ht', hsame⟩ => ⟨t, t', ht, ht', hsame, hs t ht⟩) id

theorem State.stream_setCur (s : State) (l : List Colour) : (s.setCur l).stream = s.stream :=
  JobFrame.stream (.of_no_output rfl) rfl

theorem SameButStale.readTo {s s' : State} (h : SameButStale s s') (rest : List Bool) :
    SameButStale (s.readTo rest) (s'.readTo rest) := by
  obtain ⟨l, rfl, hagree⟩ := h.cases
  rw [State.readTo, State.readTo, State.stream_setCur]
  exact sameButStale_setCur (s := s.readTo rest) hagree

theorem staleRelation_decodeRelation : DecodeRelation StaleRelation BothStop where
  context := fun ⟨h, _⟩ => by obtain ⟨l, rfl, -⟩ := h.cases; rfl
  stream := fun {s _} ⟨h, _⟩ => by obtain ⟨l, rfl, -⟩ := h.cases; rw [s.stream_setCur]
  status := fun ⟨h, _⟩ => by obtain ⟨l, rfl, -⟩ := h.cases; rfl
  phase := fun ⟨h, _⟩ => by obtain ⟨l, rfl, -⟩ := h.cases; rfl
  atEnd := fun ⟨h, _⟩ => by obtain ⟨l, rfl, -⟩ := h.cases; rfl
  readTo := fun ⟨h, hs⟩ rest => ⟨h.readTo rest, hs.ref, hs.cur, hs.acc⟩
  raised := fun ⟨h, hs⟩ e => (paired_raiseError h hs.acc e).sized fun _ => hs.raiseError
  exec := fun ⟨h, hs⟩ i => (paired_exec h hs.acc i).sized fun _ => hs.exec
  line := fun {s _} ⟨h, hs⟩ ha0 => by
    rw [h.eq_of_complete hs ha0]
    obtain ⟨t, ht⟩ | hover := lineComplete_cases s
    · exact .inl ⟨t, t, ht, ht, .refl t, hs.lineComplete ht⟩
    · rw [hover]
      exact .inr (bothStop_refused _)
  after := fun ⟨heq, hstop⟩ => ⟨by rw [heq], fun t => by rw [afterCode_stops hstop]; exact hstop t⟩

/-! ## An access of the host while the job runs -/

/-- What an access does while a decode job runs, the same in every such state: nothing, a read of a value that does not
depend on the lines, or a stop. -/
inductive BlindWhileDecoding (access : State → Result) : Prop
  | nothing (h : ∀ s : State, s.status = .busy .decode → access s = .next s)
  | read (d : HostData) (h : ∀ s : State, s.status = .busy .decode → access s = .next { s with hostData := d })
  | refused (r : Refusal) (h : ∀ s : State, s.status = .busy .decode → access s = .refused r)
  | fault (f : Fault) (h : ∀ s : State, s.status = .busy .decode → access s = .fault f)

theorem isBusy_of_decode {s : State} (h : s.status = .busy .decode) : s.isBusy = true := s.isBusy_iff.2 ⟨_, h⟩

theorem noResult_of_decode {s : State} (h : s.status = .busy .decode) : s.hasResult = false :=
  hasResult_of_busy (isBusy_of_decode h)

/-- The configuration registers, and those after them. -/
theorem register_cases (no : Nat) : no ≤ 4 ∨ ∃ k, no = k + 5 := by
  rcases Nat.lt_or_ge no 5 with h | h
  · exact .inl (by omega)
  · exact .inr ⟨no - 5, by omega⟩

theorem hostReadReg_blind (no : Nat) : BlindWhileDecoding (hostReadReg no) := by
  obtain hno | ⟨k, rfl⟩ := register_cases no
  · exact .refused _ fun s h => hostReadReg_busy (isBusy_of_decode h) hno
  match k with
  | 0 => exact .read (.word 0) fun _ _ => rfl
  | 1 => exact .read (.word (statusWord (.busy .decode))) fun s h => by rw [← h]; rfl
  | 2 => exact .refused _ fun s h => readCount_tooEarly (noResult_of_decode h) _
  | 3 => exact .refused _ fun s h => readCount_tooEarly (noResult_of_decode h) _
  | k + 4 => exact .fault _ fun _ _ => rfl

theorem hostWriteReg_blind (no : Nat) (v : Reg) : BlindWhileDecoding (hostWriteReg no v) := by
  obtain hno | ⟨k, rfl⟩ := register_cases no
  · exact .refused _ fun s h => hostWriteReg_busy (isBusy_of_decode h) hno v
  match k with
  | 0 =>
    have hcmd : v.toNat % 4 = 0 ∨ v.toNat % 4 = 3 ∨ v.toNat % 4 = startCommand .decode ∨
        v.toNat % 4 = startCommand .encode := by
      show _ ∨ _ ∨ _ = 1 ∨ _ = 2
      omega
    obtain hcmd | hcmd | hcmd | hcmd := hcmd
    · exact .nothing fun s _ => (startIsRefused s v).1 hcmd
    · exact .refused _ fun s _ => (startIsRefused s v).2.1 hcmd
    · exact .refused _ fun s h => ((startIsRefused s v).2.2 _ hcmd).1 (isBusy_of_decode h)
    · exact .refused _ fun s h => ((startIsRefused s v).2.2 _ hcmd).1 (isBusy_of_decode h)
  | 1 => exact .nothing fun _ _ => rfl
  | 2 => exact .nothing fun _ _ => rfl
  | 3 => exact .nothing fun _ _ => rfl
  | k + 4 => exact .fault _ fun _ _ => rfl

theorem hostStep_blind {op : HostOp} (hop : op ≠ .reset) : BlindWhileDecoding (hostStep op) := by
  cases op with
  | reset => exact absurd rfl hop
  | wait => exact .nothing fun _ _ => rfl
  | writeReg no v => exact hostWriteReg_blind no v
  | readReg no => exact hostReadReg_blind no
  | writeIn a v => exact .refused _ fun s h => if_pos (isBusy_of_decode h)
  | writeOut a v => exact .refused _ fun _ _ => rfl
  | readOut a => exact .refused _ fun s h => if_pos (by rw [noResult_of_decode h, Bool.not_false])
  | readCa k => exact .refused _ fun s h => if_pos (by rw [noResult_of_decode h, Bool.not_false])

/-- What the statement asks of two results. -/
def SameOutcome (r r' : Result) : Prop :=
  (∀ t, r = .next t → ∃ t', r' = .next t' ∧ SameButStale t t') ∧ ∀ x, r = .refused x → r' = .refused x

theorem SameOutcome.next {t t' : State} (h : SameButStale t t') : SameOutcome (.next t) (.next t') :=
  ⟨fun _ hu => ⟨t', rfl, Host.Outcome.next.inj hu ▸ h⟩, fun _ hx => by simp at hx⟩

theorem SameOutcome.of_eq {r r' : Result} (heq : r = r') (h : ∀ t, r ≠ .next t) : SameOutcome r r' :=
  ⟨fun t ht => absurd ht (h t), fun _ hx => heq ▸ hx⟩

theorem SameOutcome.of_paired {r r' : Result} (h : Paired StaleRelation BothStop r r') : SameOutcome r r' := by
  obtain ⟨t, t', rfl, rfl, hsame, -⟩ | ⟨heq, hstop⟩ := h
  · exact .next hsame
  · exact .of_eq heq hstop

theorem SameButStale.withHostData {s s' : State} (h : SameButStale s s') (d : HostData) :
    SameButStale { s with hostData := d } { s' with hostData := d } := by
  obtain ⟨l, rfl, hagree⟩ := h.cases
  exact sameButStale_setCur (s := { s with hostData := d }) hagree

theorem hostStep_sameOutcome {s s' : State} (h : SameButStale s s') (hbusy : s.status = .busy .decode)
    (op : HostOp) : SameOutcome (hostStep op s) (hostStep op s') := by
  have hbusy' : s'.status = .busy .decode := by obtain ⟨l, rfl, -⟩ := h.cases; exact hbusy
  by_cases hop : op = .reset
  · have heq : hostReset s' = hostReset s := by obtain ⟨l, rfl, -⟩ := h.cases; rfl
    rw [hop, hostStep, hostStep, heq]
    exact .next (.refl _)
  · cases hostStep_blind hop with
    | nothing hnext => rw [hnext s hbusy, hnext s' hbusy']; exact .next h
    | read d hread => rw [hread s hbusy, hread s' hbusy']; exact .next (h.withHostData d)
    | refused r hrefused => rw [hrefused s hbusy, hrefused s' hbusy']; exact .of_eq rfl (by simp)
    | fault f hfault => rw [hfault s hbusy, hfault s' hbusy']; exact .of_eq rfl (by simp)

/-- Settles O32: a core step keeps the relation over its parts; an access of the host looks at no line. -/
theorem stalePixelsAreNotObservable : Obligations.StalePixelsAreNotObservable := by
  intro s s' hinv hbusy hsame
  show SameOutcome (step s) (step s')
  obtain ⟨l, rfl, hagree⟩ := hsame.cases
  have hlines := (hinv.job (s.isBusy_iff.2 ⟨_, hbusy⟩)).linesOk
  have taken : ∀ ops, SameButStale { s with hostOps := ops } { s.setCur l with hostOps := ops } :=
    fun ops => sameButStale_setCur (s := { s with hostOps := ops }) hagree
  have decoded : ∀ ops,
      SameOutcome (coreStep { s with hostOps := ops }) (coreStep { s.setCur l with hostOps := ops }) := by
    intro ops
    have hsized : Sized { s with hostOps := ops } := ⟨hlines.ref.1, hlines.cur.1, hinv.acc⟩
    rw [coreStep_of_decode (s := { s with hostOps := ops }) hbusy,
      coreStep_of_decode (s := { s.setCur l with hostOps := ops }) hbusy]
    exact .of_paired (staleRelation_decodeRelation.decodeStep ⟨taken ops, hsized⟩)
  cases hops : s.hostOps with
  | nil =>
    rw [step_of_no_access hops, step_of_no_access (s := s.setCur l) hops]
    exact decoded s.hostOps
  | cons op ops =>
    by_cases hwait : op = .wait
    · subst hwait
      rw [step_of_wait hops, step_of_wait (s := s.setCur l) hops]
      exact decoded ops
    · rw [step_of_access hwait hops, step_of_access (s := s.setCur l) hwait hops]
      exact hostStep_sameOutcome (s := { s with hostOps := ops }) (taken ops) hbusy op

end Sys2Proof.Machine
end

section
/-! The round trip (43_mode_decoder.md rule R174): a decode job on the output of an encode job mirrors it, decision by
decision and line by line. -/

namespace Sys2Proof.Machine

/-! ## Runs -/

theorem runSteps_of_waiting {s : State} (hidle : s.isBusy = false) (hops : s.hostOps = []) (n : Nat) :
    runSteps n s = .next s := by
  induction n with
  | zero => exact runSteps_zero s
  | succ n ih =>
    have hwait : step s = .next s := by rw [step_of_no_access hops, coreStep_of_not_busy hidle]
    rw [runSteps_succ hwait, ih]

/-! ## The room of a decode job's output -/

theorem pixels_length {s : State} (h : DecodeOutput s) : s.pixels.length = s.store.length * s.width := by
  have hrows : s.store.map List.length = List.replicate s.store.length s.width := by
    refine List.eq_replicate_iff.2 ⟨List.length_map _, fun n hn => ?_⟩
    obtain ⟨row, hrow, rfl⟩ := List.mem_map.1 hn
    exact h.rows row hrow
  rw [State.pixels, List.length_flatten, hrows, List.sum_replicate, smul_eq_mul]

/-- The packed bitmap has one bit for each pixel (42_store.md rule R144). -/
theorem packed_length {s : State} (h : DecodeOutput s) (hs : s.colourStore = false) :
    8 * s.outLen + s.acc.length = s.store.length * s.width := by
  rw [← s.outBits_length, h.packed hs, List.length_map, pixels_length h]

/-- A line fits where the pixels with it do. -/
theorem Receiving.lineComplete_of_room {s : State} (h : Receiving s)
    (hroom : (s.store.length + 1) * s.width ≤ s.params.maxOutBytes) : ∃ t, Machine.lineComplete s = .next t := by
  rw [Nat.succ_mul] at hroom
  have hout : s.outLen ≤ s.params.maxOutBytes := by
    cases hs : s.colourStore with
    | true => rw [(h.output.array hs).2.1]; exact Nat.zero_le _
    | false => have := packed_length h.output hs; omega
  obtain ⟨harray, hpacked⟩ := lineCompletePushesAndSwaps s h.acc h.outWf hout
  cases hs : s.colourStore with
  | true =>
    have hca : s.ca.length = s.store.length * s.width := by rw [(h.output.array hs).1, pixels_length h.output]
    exact ⟨_, harray hs (by omega)⟩
  | false =>
    have hbits := packed_length h.output hs
    obtain ⟨t, ht, -⟩ := hpacked hs (by omega)
    exact ⟨t, ht⟩

/-- The byte in progress fits where the pixels do. -/
theorem Receiving.flushFits_of_room {s : State} (h : Receiving s)
    (hroom : s.store.length * s.width ≤ s.params.maxOutBytes) : s.flushFits := by
  rintro ⟨⟨-, hs⟩, hnil⟩
  have hbits := packed_length h.output hs
  have hpos := List.length_pos_iff.2 hnil
  omega

/-! ## The encoder's side -/

/-- The first `n` scanlines of the source (44_encoder.md rule R182). -/
def State.sourceRows (s : State) (n : Nat) : List (List Colour) :=
  (List.range n).map fun k => scanline s.width (State.sourceLine { s with y := k })

theorem State.sourceRows_height (s : State) : s.sourceRows s.height = s.sourceLines := rfl

theorem State.sourceRows_succ (s : State) :
    s.sourceRows (s.y + 1) = s.sourceRows s.y ++ [scanline s.width s.sourceLine] := by
  rw [State.sourceRows, List.range_succ, List.map_append]
  rfl

theorem JobFrame.sourceRows {s t : State} (h : JobFrame s t) (n : Nat) : t.sourceRows n = s.sourceRows n := by
  rw [h.eq]
  rfl

theorem JobFrame.sourceLine {s t : State} (h : JobFrame s t) (hy : t.y = s.y) : t.sourceLine = s.sourceLine := by
  rw [h.eq, hy]
  rfl

/-- An encode job between two steps: within the source, and with the source line under the position. -/
structure Encoding (e : State) : Prop where
  busy : e.status = .busy .encode
  hostOps : e.hostOps = []
  acc : e.acc.length < 8
  outWf : Memory.wf e.outMem
  a0 : e.a0 ≤ e.width
  y : e.y ≤ e.height
  loaded : e.a0 ≠ 0 → e.cur = e.sourceLine
  coded : cell e.sourceLine e.a0 = e.color

theorem Encoding.startLine_cur {e : State} (h : Encoding e) : (startLine e).cur = e.sourceLine := by
  by_cases h0 : e.a0 = 0
  · rw [startLine_of_start h0, loadLine_cur]
  · rw [startLine_of_inside h0, h.loaded h0]

/-- The load of a line writes neither `OUT` nor the packer, nor what a decision starts from but the line. -/
theorem startLine_keeps (e : State) :
    (startLine e).ref = e.ref ∧ (startLine e).color = e.color ∧ (startLine e).outMem = e.outMem ∧
      (startLine e).outBits = e.outBits := by
  unfold startLine
  split
  · exact ⟨loadLine_ref e, rfl, rfl, rfl⟩
  · exact ⟨rfl, rfl, rfl, rfl⟩

/-- What a decision leaves, with the load of the line before it. -/
theorem decision_keeps {e u : State} (hu : codeStep (startLine e) = some u) :
    JobFrame e u ∧ u.y = e.y ∧ u.status = e.status ∧ u.ref = e.ref := by
  obtain ⟨hy, hstatus⟩ := codeStep_keeps hu
  exact ⟨(startLine_jobFrame e).trans (codeStep_jobFrame hu), hy.trans (startLine_y e),
    hstatus.trans (startLine_status e), (codeStep_lines hu).1.trans (startLine_keeps e).1⟩

/-- A decision leaves the source line under the new position. -/
theorem Encoding.decision {e u : State} (h : Encoding e) (hu : codeStep (startLine e) = some u) :
    u.cur = e.sourceLine ∧ (u.a0 ≤ e.width → cell e.sourceLine u.a0 = u.color) := by
  obtain ⟨-, hcolor, -⟩ := startLine_keeps e
  have hwidth : (startLine e).width = e.width := (startLine_jobFrame e).width
  have hcur := h.startLine_cur
  have hcoded : cell (startLine e).cur (startLine e).a0 = (startLine e).color := by
    rw [hcur, startLine_a0, hcolor]
    exact h.coded
  have hafter := codeStep_coded hcoded (by rw [startLine_a0, hwidth]; exact h.a0) hu
  rw [hcur, hwidth] at hafter
  exact ⟨(codeStep_lines hu).2.trans hcur, hafter⟩

theorem Encoding.outBits {e u : State} (h : Encoding e) (hu : codeStep (startLine e) = some u) :
    u.outBits = e.outBits ++ (startLine e).decisionBits := by
  obtain ⟨-, -, hmem, hbits⟩ := startLine_keeps e
  obtain ⟨v, hv, hcases⟩ := codeStep_some hu
  have hwritten := State.writeBits_outBits (hmem ▸ h.outWf) hv
  rw [← hbits, ← hwritten]
  obtain ⟨-, rfl⟩ | ⟨-, -, rfl⟩ | ⟨-, -, rfl⟩ := hcases <;> rfl

/-- The job goes on after a decision within the line. -/
theorem Encoding.within_line {e u : State} (h : Encoding e) (hu : codeStep (startLine e) = some u)
    (hle : u.a0 ≤ u.width) : Encoding u := by
  obtain ⟨hframe, hy, hstatus, -⟩ := decision_keeps hu
  obtain ⟨hcur, hcoded⟩ := h.decision hu
  have hsource : u.sourceLine = e.sourceLine := hframe.sourceLine hy
  exact
    { busy := hstatus.trans h.busy
      hostOps := hframe.hostOps.trans h.hostOps
      acc := hframe.acc h.acc
      outWf := hframe.wf h.outWf
      a0 := hle
      y := by rw [hy, hframe.height]; exact h.y
      loaded := fun _ => hcur.trans hsource.symm
      coded := by rw [hsource]; exact hcoded (hframe.width ▸ hle) }

/-- The job goes on after the end of a line. -/
theorem Encoding.next_line {e u : State} (h : Encoding e) (hy : e.y < e.height)
    (hu : codeStep (startLine e) = some u) : Encoding (endLine u) := by
  obtain ⟨hframe, huy, hstatus, -⟩ := decision_keeps hu
  exact
    { busy := hstatus.trans h.busy
      hostOps := hframe.hostOps.trans h.hostOps
      acc := hframe.acc h.acc
      outWf := hframe.wf h.outWf
      a0 := Nat.zero_le _
      y := by
        show u.y + 1 ≤ u.height
        rw [huy, hframe.height]
        exact hy
      loaded := fun h0 => absurd rfl h0
      coded := State.sourceLine_zero _ }

/-! ## The decoder's side -/

/-- A decode job at the same point of the image as an encode job, with the lines before it in its store. -/
structure Mirrors (e x : State) : Prop where
  width : e.width = x.width
  ref : e.ref = x.ref
  a0 : e.a0 = x.a0
  color : e.color = x.color
  same : ∀ p, 1 ≤ p → p < e.a0 → cell x.cur p = cell e.sourceLine p
  hostOps : x.hostOps = []
  phase : x.phase = .mode
  receiving : Receiving x
  lines : LinesOk x
  store : x.store = e.sourceRows e.y
  room : e.height * e.width ≤ x.params.maxOutBytes

theorem Mirrors.agree {e x : State} (h : Mirrors e x) (he : Encoding e) : Agree (startLine e) x := by
  obtain ⟨href, hcolor, -⟩ := startLine_keeps e
  have hwidth : (startLine e).width = e.width := (startLine_jobFrame e).width
  have hcur := he.startLine_cur
  exact
    { width := hwidth.trans h.width
      ref := href.trans h.ref
      a0 := (startLine_a0 e).trans h.a0
      color := hcolor.trans h.color
      within := by rw [startLine_a0, hwidth]; exact he.a0
      length := h.lines.cur.1
      coded := by rw [hcur, startLine_a0, hcolor]; exact he.coded
      same := fun p h1 hp => by rw [hcur]; exact h.same p h1 (startLine_a0 e ▸ hp) }

theorem lineComplete_store {s t : State} (h : lineComplete s = .next t) :
    t.store = s.store ++ [scanline s.width s.cur] := by
  obtain ⟨u, -, rfl, hframe, -⟩ := lineComplete_next h
  rw [hframe.eq]

theorem Receiving.movedTo {d : State} (h : Receiving d) (l : List Colour) (q : Nat) (c : Colour) :
    Receiving (d.movedTo l q c) :=
  ⟨h.busy, h.acc, h.outWf, h.output.lines, h.output.rows, h.output.packed, h.output.array⟩

theorem State.stream_movedTo (d : State) (l : List Colour) (q : Nat) (c : Colour) :
    (d.movedTo l q c).stream = d.stream :=
  JobFrame.stream (.of_no_output rfl) rfl

/-- The rows received are as many as the encoder has coded. -/
theorem Mirrors.store_length {e x : State} (h : Mirrors e x) : x.store.length = e.y := by
  rw [h.store, State.sourceRows, List.length_map, List.length_range]

/-- The room for the lines of the source is room for as many as the encoder has coded. -/
theorem Mirrors.room_for {e x : State} (h : Mirrors e x) {n : Nat} (hn : n ≤ e.height) :
    n * x.width ≤ x.params.maxOutBytes := by
  rw [← h.width]
  exact (Nat.mul_le_mul_right _ hn).trans h.room

/-- What the decoder's step on the bits of a decision leaves, before the end of the line. -/
structure Mirrored (e x u x' : State) (w : List Bool) : Prop where
  step : decodeStep x = afterCode (.next x')
  follows : Follows (startLine e) (x.readTo w) u.a0 u.color x'
  stream : x'.stream = w
  receiving : Receiving x'

theorem Mirrors.decision {e x u : State} {w : List Bool} (h : Mirrors e x) (he : Encoding e)
    (hu : codeStep (startLine e) = some u) (hstream : x.stream = (startLine e).decisionBits ++ w) :
    ∃ x', Mirrored e x u x' w := by
  obtain ⟨x', hstep, hfollows⟩ := (h.agree he).decodeStep hu h.receiving.busy h.phase hstream
  have heq : x' = (x.readTo w).movedTo x'.cur x'.a0 x'.color := hfollows.eq
  refine ⟨x', hstep, hfollows, ?_, ?_⟩
  · rw [heq, State.stream_movedTo]
    exact State.readTo_stream ⟨_, hstream.symm⟩
  · rw [heq]
    exact (h.receiving.readTo w).movedTo _ _ _

section
variable {e x u x' : State} {w : List Bool}

/-- What a decoder's step leaves before the end of the line. -/
theorem Mirrored.keeps (hx' : Mirrored e x u x' w) :
    x'.ref = x.ref ∧ x'.width = x.width ∧ x'.phase = x.phase ∧ x'.store = x.store ∧ x'.params = x.params ∧
      x'.hostOps = x.hostOps := by
  rw [hx'.follows.eq]
  exact ⟨(x.readTo w).setCur_ref _, rfl, rfl, rfl, rfl, rfl⟩

theorem Mirrors.stepped_lines {x₁ : State} (h : Mirrors e x) (he : Encoding e)
    (hstep : decodeStep x = .next x₁) : LinesOk x₁ :=
  ((decodeStep_next h.receiving.busy hstep).linesOk h.lines (by rw [← h.a0, ← h.width]; exact he.a0)).1

/-- What `afterCode` asks of the decoder's state: the job runs, no pair is open, and the line has ended where the
encoder's has. -/
theorem Mirrors.afterCode_eq (h : Mirrors e x) (hu : codeStep (startLine e) = some u) (hx' : Mirrored e x u x' w) :
    decodeStep x = if u.width < u.a0 then lineComplete x' else .next x' := by
  obtain ⟨-, hwidth, hphase, -⟩ := hx'.keeps
  obtain ⟨hframe, -⟩ := decision_keeps hu
  rw [hx'.step, afterCode, if_neg (not_not.2 hx'.receiving.busy), if_neg (not_not.2 (hphase.trans h.phase)),
    hx'.follows.a0, hwidth, ← h.width, hframe.width]

/-- A decision within the line: both sides are at the same point again. -/
theorem Mirrors.within_line (h : Mirrors e x) (he : Encoding e) (hu : codeStep (startLine e) = some u)
    (hx' : Mirrored e x u x' w) (hle : u.a0 ≤ u.width) : decodeStep x = .next x' ∧ Mirrors u x' := by
  obtain ⟨hframe, hy, -, huref⟩ := decision_keeps hu
  obtain ⟨href, hwidth, hphase, hstore, hparams, hops⟩ := hx'.keeps
  have hstep := h.afterCode_eq hu hx'
  rw [if_neg (Nat.not_lt.2 hle)] at hstep
  refine ⟨hstep, ?_⟩
  exact
    { width := by rw [hframe.width, h.width, hwidth]
      ref := by rw [huref, h.ref, href]
      a0 := hx'.follows.a0.symm
      color := hx'.follows.color.symm
      same := fun p h1 hp => by rw [hframe.sourceLine hy, hx'.follows.same p h1 hp, he.startLine_cur]
      hostOps := hops.trans h.hostOps
      phase := hphase.trans h.phase
      receiving := hx'.receiving
      lines := h.stepped_lines he hstep
      store := by rw [hstore, h.store, hy, hframe.sourceRows]
      room := by rw [hframe.height, hframe.width, hparams]; exact h.room }

/-- The decoder's line at the end of a line is the source line. -/
theorem Mirrored.cur_at_end (hx' : Mirrored e x u x' w) (he : Encoding e)
    (hu : codeStep (startLine e) = some u) (hlt : u.width < u.a0) (hcur : LineOk e.width x'.cur) :
    x'.cur = e.sourceLine := by
  obtain ⟨hframe, -⟩ := decision_keeps hu
  obtain ⟨hlength, hzero⟩ := hcur
  refine AgreeBelow.eq (n := e.width + 1) ⟨by rw [hlength, e.sourceLine_length], fun p hp => ?_⟩
    (e.sourceLine_length).le
  obtain rfl | h1 := Nat.eq_zero_or_pos p
  · rw [hzero, e.sourceLine_zero]
  · rw [hx'.follows.same p h1 (by rw [hframe.width] at hlt; omega), he.startLine_cur]

/-- The last decision of a line: the decoder pushes the source line, and both sides start the next one. -/
theorem Mirrors.next_line (h : Mirrors e x) (he : Encoding e) (hu : codeStep (startLine e) = some u)
    (hx' : Mirrored e x u x' w) (hy : e.y < e.height) (hlt : u.width < u.a0) :
    ∃ x₁, decodeStep x = .next x₁ ∧ Mirrors (endLine u) x₁ ∧ x₁.stream = w := by
  obtain ⟨hframe, huy, -, -⟩ := decision_keeps hu
  obtain ⟨href, hwidth, hphase, hstore, hparams, hops⟩ := hx'.keeps
  have hstep := h.afterCode_eq hu hx'
  rw [if_pos hlt] at hstep
  obtain ⟨x₁, hline⟩ := hx'.receiving.lineComplete_of_room (by
    rw [hstore, h.store_length, hwidth, hparams]
    exact h.room_for hy)
  rw [hline] at hstep
  have hlines := h.stepped_lines he hstep
  have hline' := lineComplete_jobFrame hline
  obtain ⟨href₁, -, hcolor₁⟩ := lineComplete_swaps hline
  obtain ⟨-, hpos₁, -, hphase₁, ha0₁⟩ := lineComplete_counts hline
  have hwidth₁ : e.width = x₁.width := by rw [hline'.width, hwidth, h.width]
  have hfull : x'.cur = e.sourceLine := hx'.cur_at_end he hu hlt (href₁ ▸ hwidth₁ ▸ hlines.ref)
  refine ⟨x₁, hstep, ?_, (hline'.stream hpos₁).trans hx'.stream⟩
  exact
    { width := hframe.width.trans hwidth₁
      ref := by
        have hend : (endLine u).ref = u.cur := u.nextLine_ref
        rw [hend, (he.decision hu).1, href₁, hfull]
      a0 := ha0₁.symm
      color := hcolor₁.symm
      same := fun p _ hp => absurd hp (Nat.not_lt_zero p)
      hostOps := by rw [hline'.hostOps, hops, h.hostOps]
      phase := hphase₁.trans (hphase.trans h.phase)
      receiving := hx'.receiving.lineComplete hline
      lines := hlines
      store := by
        have hrows : (endLine u).sourceRows (u.y + 1) = e.sourceRows (e.y + 1) := by
          rw [← hframe.sourceRows, huy]
          rfl
        show x₁.store = (endLine u).sourceRows (u.y + 1)
        rw [lineComplete_store hline, hstore, h.store, hrows, State.sourceRows_succ, hwidth, ← h.width, hfull]
      room := by
        show u.height * u.width ≤ x₁.params.maxOutBytes
        rw [hframe.height, hframe.width, hline'.params, hparams]
        exact h.room }

end

/-! ## The whole job -/

/-- What an encode job that has ended in `t` leaves: the bits it has written from `e` on, which a decode job at the same
point reads to the end of the source. -/
structure RoundTrip (e t : State) (w : List Bool) : Prop where
  acc : t.acc = []
  outBits : t.outBits = e.outBits ++ w
  decodes : ∀ x, Mirrors e x → x.stream = w →
    ∃ m u, runSteps m x = .next u ∧ JobFrame x u ∧ u.status = .done ∧ EndedOutput u ∧ u.store = e.sourceLines

theorem Mirrors.step_of_decode {e x : State} (h : Mirrors e x) : step x = decodeStep x :=
  Machine.step_of_decode h.hostOps h.receiving.busy

/-- A decode step on EOFB ends the job with the store finalised. -/
theorem decodeStep_eofb {x : State} {pad : List Bool} (hphase : x.phase = .mode) (hacc : x.acc.length < 8)
    (hfits : (x.readTo pad).flushFits) (hstream : x.stream = encode .eofb ++ pad) :
    decodeStep x = .next { (x.readTo pad).flushed with phase := .mode, status := .done } := by
  have hexec : exec .eofb (x.readTo pad) = finishDecode (x.readTo pad) := rfl
  rw [decodeStep_modeCode hphase rfl hstream, hexec, finishDecode_of_flushFits (s := x.readTo pad) hacc hfits, afterCode,
    if_pos (by simp)]

/-- EOFB where the encoder has coded its last line: the decoder ends with the source lines. -/
theorem Mirrors.decodes_eofb {e x : State} {pad : List Bool} (h : Mirrors e x) (hy : e.y = e.height)
    (hstream : x.stream = encode .eofb ++ pad) :
    ∃ m u, runSteps m x = .next u ∧ JobFrame x u ∧ u.status = .done ∧ EndedOutput u ∧ u.store = e.sourceLines := by
  have hr := h.receiving.readTo pad
  have hroom : (x.readTo pad).store.length * (x.readTo pad).width ≤ (x.readTo pad).params.maxOutBytes :=
    h.room_for (h.store_length.trans hy).le
  have hfits := hr.flushFits_of_room hroom
  have hstep := decodeStep_eofb h.phase h.receiving.acc hfits hstream
  refine ⟨1, _, (runSteps_succ (h.step_of_decode.trans hstep) 0).trans (runSteps_zero _),
    (decodeStep_next h.receiving.busy hstep).jobFrame, rfl,
    (hr.finishDecode (finishDecode_of_flushFits hr.acc hfits)).2, ?_⟩
  show (x.readTo pad).flushed.store = e.sourceLines
  rw [(x.readTo pad).flushed_output.1, ← e.sourceRows_height, ← hy]
  exact h.store

/-- The termination writes EOFB and the padding. -/
theorem Encoding.roundTrip_terminate {e t : State} (he : Encoding e) (hy : e.height ≤ e.y)
    (ht : terminate e = .next t) : ∃ w, RoundTrip e t w := by
  obtain ⟨u, v, hu, hv, -, rfl⟩ := terminate_next ht
  have hframe := State.writeBits_frame hu
  have hacc : v.acc = [] := State.flush_acc (hframe.acc he.acc) hv
  have hbits : v.outBits = e.outBits ++ (encode .eofb ++ List.replicate ((8 - u.acc.length) % 8) false) := by
    rw [State.flush_outBits (hframe.acc he.acc) (hframe.wf he.outWf) hv, State.writeBits_outBits he.outWf hu,
      List.append_assoc]
  exact ⟨_, hacc, hbits, fun x hx hstream => hx.decodes_eofb (le_antisymm he.y hy) hstream⟩

/-- A mode decision in front of the rest of the job. -/
theorem Encoding.roundTrip_decision {e u e' t : State} {w : List Bool} (he : Encoding e) (hy : e.y < e.height)
    (hu : codeStep (startLine e) = some u)
    (he' : (u.width < u.a0 ∧ e' = endLine u) ∨ (u.a0 ≤ u.width ∧ e' = u)) (hrest : RoundTrip e' t w) :
    RoundTrip e t ((startLine e).decisionBits ++ w) := by
  obtain ⟨hframe, -⟩ := decision_keeps hu
  have hbits : e'.outBits = e.outBits ++ (startLine e).decisionBits := by
    rw [← he.outBits hu]
    obtain ⟨-, rfl⟩ | ⟨-, rfl⟩ := he' <;> rfl
  have hsource : e'.sourceLines = e.sourceLines := by
    have hu' : u.sourceLines = e.sourceLines := by
      rw [← u.sourceRows_height, hframe.sourceRows, hframe.height, e.sourceRows_height]
    obtain ⟨-, rfl⟩ | ⟨-, rfl⟩ := he' <;> exact hu'
  refine ⟨hrest.acc, by rw [hrest.outBits, hbits, List.append_assoc], fun x hx hstream => ?_⟩
  obtain ⟨x', hx'⟩ := hx.decision he hu hstream
  obtain ⟨x₁, hstep, hmirrors, hleft⟩ : ∃ x₁, decodeStep x = .next x₁ ∧ Mirrors e' x₁ ∧ x₁.stream = w := by
    obtain ⟨hlt, rfl⟩ | ⟨hle, rfl⟩ := he'
    · exact hx.next_line he hu hx' hy hlt
    · obtain ⟨hstep, hmirrors⟩ := hx.within_line he hu hx' hle
      exact ⟨x', hstep, hmirrors, hx'.stream⟩
  obtain ⟨m, v, hrun, hvframe, hdone, hended, hstore⟩ := hrest.decodes x₁ hmirrors hleft
  exact ⟨m + 1, v, (runSteps_succ (hx.step_of_decode.trans hstep) m).trans hrun,
    (decodeStep_next hx.receiving.busy hstep).jobFrame.trans hvframe, hdone, hended, hstore.trans hsource⟩

/-- By induction on the steps of the encode job: the bits it writes decode to the lines that are left. -/
theorem Encoding.roundTrip {n : Nat} {e t : State} (he : Encoding e) (hrun : runSteps n e = .next t)
    (hdone : t.status = .done) : ∃ w, RoundTrip e t w := by
  induction n generalizing e with
  | zero =>
    obtain rfl := Host.Outcome.next.inj ((runSteps_zero e).symm.trans hrun)
    simp [he.busy] at hdone
  | succ n ih =>
    have hstep := step_of_encode he.hostOps he.busy
    obtain ⟨e', he'⟩ | hover := encodeStep_cases e
    · rw [runSteps_succ (hstep.trans he')] at hrun
      obtain ⟨hy, u, hu, hcases⟩ | ⟨hy, hterm⟩ := encodeStep_next he'
      · have hnext : Encoding e' := by
          obtain ⟨-, rfl⟩ | ⟨hle, rfl⟩ := hcases
          · exact he.next_line hy hu
          · exact he.within_line hu hle
        obtain ⟨w, hw⟩ := ih hnext hrun
        exact ⟨_, he.roundTrip_decision hy hu hcases hw⟩
      · have hwaits : runSteps n e' = .next e' := by
          obtain ⟨u, v, -, -, hframe, rfl⟩ := terminate_next hterm
          exact runSteps_of_waiting (s := { v with status := .done }) rfl (hframe.jobFrame.hostOps.trans he.hostOps) n
        obtain rfl := Host.Outcome.next.inj (hwaits.symm.trans hrun)
        exact he.roundTrip_terminate hy hterm
    · rw [runSteps_succ_refused (hstep.trans hover)] at hrun
      cases hrun

/-! ## From START -/

theorem encoding_beginJob {s : State} (hops : s.hostOps = []) (hwf : Memory.wf s.outMem) :
    Encoding (beginJob .encode s) where
  busy := rfl
  hostOps := hops
  acc := Nat.succ_pos 7
  outWf := hwf
  a0 := Nat.zero_le _
  y := Nat.zero_le _
  loaded := fun h => absurd rfl h
  coded := State.sourceLine_zero _

theorem mirrors_beginJob {s d : State} (hwidth : d.width = s.width) (hops : d.hostOps = [])
    (hwf : Memory.wf d.outMem) (hroom : s.height * s.width ≤ d.params.maxOutBytes) :
    Mirrors (beginJob .encode s) (beginJob .decode d) where
  width := hwidth.symm
  ref := congrArg newRow hwidth.symm
  a0 := rfl
  color := rfl
  same := fun p _ hp => absurd hp (Nat.not_lt_zero p)
  hostOps := hops
  phase := rfl
  receiving := ⟨rfl, Nat.succ_pos 7, hwf, beginJob_output d⟩
  lines := ⟨newRow_ok _, newRow_ok _, fun _ => rfl⟩
  store := rfl
  room := hroom

/-- The input of a decode job that holds the output of an encode job is its stream. -/
theorem stream_beginJob {d t : State} (horder : d.cfgOrder = false) (hlen : d.inLen = t.outLen) (hacc : t.acc = [])
    (hbytes : ∀ a, a < t.outLen → Memory.read d.inMem a = Memory.read t.outMem a) :
    (beginJob .decode d).stream = t.outBits := by
  have hinLen : (beginJob .decode d).inLen = t.outLen := hlen
  rw [State.stream_eq_bytes horder rfl, hinLen, State.outBits, hacc, List.append_nil]
  refine List.flatMap_congr fun a ha => ?_
  have hread : Memory.read (beginJob .decode d).inMem a = Memory.read t.outMem a :=
    hbytes a (List.mem_range.1 ha)
  rw [hread]

/-- Settles O49: the two fresh jobs mirror each other, and the encoder's whole output is the decoder's stream. -/
theorem decodeOfEncodeIsTheImage : Obligations.DecodeOfEncodeIsTheImage := by
  intro s t d n _ hops hwf hrun hdone hwidth horder hdops hdwf hlen hbytes hroom
  obtain ⟨w, hw⟩ := (encoding_beginJob hops hwf).roundTrip hrun hdone
  have hstream : (beginJob .decode d).stream = w :=
    (stream_beginJob horder hlen hw.acc hbytes).trans hw.outBits
  obtain ⟨m, u, hdecoded, hframe, hudone, hended, hstore⟩ :=
    hw.decodes _ (mirrors_beginJob hwidth hdops hdwf hroom) hstream
  have hlines : u.store = s.sourceLines := hstore
  have hvariant : u.colourStore = d.colourStore := by rw [hframe.eq]; rfl
  have hparams : u.params = d.params := hframe.params
  refine ⟨m, u, hdecoded, hudone, hlines, ?_, fun harray => (hended.array (hvariant.trans harray)).1,
    fun hpacked => ?_⟩
  · rw [hended.lines, hlines, State.sourceLines, List.length_map, List.length_range]
  · rw [← hparams]
    exact (hended.packed (hvariant.trans hpacked)).2

end Sys2Proof.Machine
end
